-- ==== Sys2Proof/Word.lean ====
section
/-! DEFINITION. The word types of the BlipBuf CORE (spec/00_scope.md R6, R9; spec/10_state.md R21). -/

namespace Sys2Proof

/-- Eight bits: what the host sees at one byte address (20_memory.md R55). -/
abbrev Byte := BitVec 8

/-- A kernel coefficient (R6) or an element of OUT16 (20_memory.md R56). -/
abbrev Half := BitVec 16

/-- A host register, a BUF cell, INTEGRATOR, or an element of OUTF (10_state.md R21). -/
abbrev Word := BitVec 32

/-- FACTOR, OFFSET and RESULT (10_state.md R28, R30, R31). -/
abbrev DWord := BitVec 64

end Sys2Proof
end

