-- ==== Sys2Proof/Config.lean ====
section
/-! DEFINITION. What an implementation fixes: the constants of spec/00_scope.md R6 and R7, the
parameters of R8 with the default kernel of spec/20_memory.md R60, and the values the spec leaves
free. -/

namespace Sys2Proof.Config

/-- TIME_UNIT = 2^52 (00_scope.md R6). -/
def timeUnit : Nat := 2 ^ 52

/-- MAX_RATIO = 2^20 (00_scope.md R6). -/
def maxRatio : Nat := 2 ^ 20

/-- PHASE_COUNT = 32 (00_scope.md R6). -/
def phaseCount : Nat := 32

/-- HALF_WIDTH = 8 (00_scope.md R6). -/
def halfWidth : Nat := 8

/-- DELTA_BITS = 15 (00_scope.md R6). -/
def deltaBits : Nat := 15

/-- DELTA_UNIT = 2^15 (00_scope.md R6). -/
def deltaUnit : Nat := 2 ^ 15

/-- PRE_SHIFT = 32 (00_scope.md R7). -/
def preShift : Nat := 32

/-- FRAC_BITS = 20 (00_scope.md R7). -/
def fracBits : Nat := 20

/-- END_FRAME_EXTRA = 2 cells (00_scope.md R7). -/
def endFrameExtra : Nat := 2

/-- BUF_EXTRA = 2 x HALF_WIDTH + END_FRAME_EXTRA = 18 cells (00_scope.md R7). -/
def bufExtra : Nat := 18

/-- BASS_SHIFT = 9 (00_scope.md R7). -/
def bassShift : Nat := 9

/-- FACTOR_RESET = 2^32 (00_scope.md R7). -/
def factorReset : DWord := 4294967296#64

/-- OFFSET after reset: min(FACTOR_RESET >> 1, TIME_UNIT >> 1) = 2^31 (10_state.md R21). -/
def offsetReset : DWord := 2147483648#64

/-- SAMPLE_ORDER (00_scope.md R8, 43_sample_extractor.md R142). -/
inductive SampleOrder where
  | integrateFirst
  | sampleFirst
  deriving DecidableEq, Repr

/-- SHIFT_WINDOW (00_scope.md R8, 43_sample_extractor.md R147). -/
inductive ShiftWindow where
  | availPlusExtra
  | wholeBuffer
  deriving DecidableEq, Repr

/-- Eight taps of one phase row (20_memory.md R59). -/
abbrev KernelRow := Vector Half 8

/-- The kernel ROM: rows for the phases 0 .. 32 (20_memory.md R59). -/
abbrev Kernel := Vector KernelRow 33

/-- A row of signed coefficients in tap order. -/
def kernelRow (t0 t1 t2 t3 t4 t5 t6 t7 : Int) : KernelRow :=
  #v[BitVec.ofInt 16 t0, BitVec.ofInt 16 t1, BitVec.ofInt 16 t2, BitVec.ofInt 16 t3,
     BitVec.ofInt 16 t4, BitVec.ofInt 16 t5, BitVec.ofInt 16 t6, BitVec.ofInt 16 t7]

/-- Rows 0 .. 10 of the default kernel (20_memory.md R60). -/
def kernelRowsLow : Vector KernelRow 11 :=
  #v[
    kernelRow 43 (-115) 350 (-488) 1136 (-914) 5861 21022,
    kernelRow 44 (-118) 348 (-473) 1076 (-799) 5274 21001,
    kernelRow 45 (-121) 344 (-454) 1011 (-677) 4706 20936,
    kernelRow 46 (-122) 336 (-431) 942 (-549) 4156 20829,
    kernelRow 47 (-123) 327 (-404) 868 (-418) 3629 20679,
    kernelRow 47 (-122) 316 (-375) 792 (-285) 3124 20488,
    kernelRow 47 (-120) 303 (-344) 714 (-151) 2644 20256,
    kernelRow 46 (-117) 289 (-310) 634 (-17) 2188 19985,
    kernelRow 46 (-114) 273 (-275) 553 117 1758 19675,
    kernelRow 44 (-108) 255 (-237) 471 247 1356 19327,
    kernelRow 43 (-103) 237 (-199) 390 373 981 18944]

/-- Rows 11 .. 21 of the default kernel (20_memory.md R60). -/
def kernelRowsMiddle : Vector KernelRow 11 :=
  #v[
    kernelRow 42 (-98) 218 (-160) 310 495 633 18527,
    kernelRow 40 (-91) 198 (-121) 231 611 314 18078,
    kernelRow 38 (-84) 178 (-81) 153 722 22 17599,
    kernelRow 36 (-76) 157 (-43) 80 824 (-241) 17092,
    kernelRow 34 (-68) 135 (-3) 8 919 (-476) 16558,
    kernelRow 32 (-61) 115 34 (-60) 1006 (-683) 16001,
    kernelRow 29 (-52) 94 70 (-123) 1083 (-862) 15422,
    kernelRow 27 (-44) 73 106 (-184) 1152 (-1015) 14824,
    kernelRow 25 (-36) 53 139 (-239) 1211 (-1142) 14210,
    kernelRow 22 (-27) 34 170 (-290) 1261 (-1244) 13582,
    kernelRow 20 (-20) 16 199 (-335) 1301 (-1322) 12942]

/-- Rows 22 .. 32 of the default kernel (20_memory.md R60). -/
def kernelRowsHigh : Vector KernelRow 11 :=
  #v[
    kernelRow 18 (-12) (-3) 226 (-375) 1331 (-1376) 12293,
    kernelRow 15 (-4) (-19) 250 (-410) 1351 (-1408) 11638,
    kernelRow 13 3 (-35) 272 (-439) 1361 (-1419) 10979,
    kernelRow 11 9 (-49) 292 (-464) 1362 (-1410) 10319,
    kernelRow 9 16 (-63) 309 (-483) 1354 (-1383) 9660,
    kernelRow 7 22 (-75) 322 (-496) 1337 (-1339) 9005,
    kernelRow 6 26 (-85) 333 (-504) 1312 (-1280) 8355,
    kernelRow 4 31 (-94) 341 (-507) 1278 (-1205) 7713,
    kernelRow 3 35 (-102) 347 (-506) 1238 (-1119) 7082,
    kernelRow 1 40 (-110) 350 (-499) 1190 (-1021) 6464,
    kernelRow 0 43 (-115) 350 (-488) 1136 (-914) 5861]

/-- The default KERNEL: the 33 x 8 table of 20_memory.md R60. -/
def defaultKernel : Kernel := (kernelRowsLow ++ kernelRowsMiddle) ++ kernelRowsHigh

/-- The parameters of 00_scope.md R8, fixed when the CORE is elaborated. They stand in State so that
every statement is about every CORE (log 1). -/
structure Params where
  /-- CAPACITY: the most output samples the buffer can hold. -/
  capacity : Nat
  /-- OUT16_LEN: elements of OUT16. -/
  out16Len : Nat
  /-- OUTF_LEN: elements of OUTF. -/
  outFLen : Nat
  /-- REG_BASE: host address of the REG window (20_memory.md R54). -/
  regBase : Nat
  /-- KERNEL: the coefficient table. -/
  kernel : Kernel
  /-- SAMPLE_ORDER. -/
  sampleOrder : SampleOrder
  /-- SHIFT_WINDOW. -/
  shiftWindow : ShiftWindow
  deriving DecidableEq, Repr

/-- The parameters State.reset is elaborated with. DESIGN CHOICE (log 2): the spec names defaults for
KERNEL, SAMPLE_ORDER and SHIFT_WINDOW only; 4800 is the capacity of its scenario E1 and 64 the
output length of decision D8. -/
def Params.default : Params :=
  { capacity := 4800, out16Len := 64, outFLen := 64, regBase := 0, kernel := defaultKernel,
    sampleOrder := .integrateFirst, shiftWindow := .availPlusExtra }

/-- FREE VALUE (log 6): what element i of OUT16 holds before anything has written it
(93_implementation_defined.md I5: any value). -/
opaque out16Initial : Nat → Half

/-- FREE VALUE (log 6): what element i of OUTF holds before anything has written it
(93_implementation_defined.md I5: any value). -/
opaque outFInitial : Nat → Word

/-- FREE VALUE (log 10): what CLOCKS_NEEDED would leave in RESULT if FACTOR were 0, which
10_state.md R37 excludes; a function of the dividend. -/
opaque clocksAtZeroFactor : Nat → DWord

end Sys2Proof.Config
end

