-- ==== Sys2Proof/Syntax.lean ====
section
/-! DEFINITION. The instructions: one constructor per row of spec/opcode_table.json
(spec/30_encoding.md R72). Operands are not in the command word; only S is (R70). -/

namespace Sys2Proof

/-- The eight commands (30_encoding.md R72). `stereo` is the bit S. -/
inductive Instr where
  /-- CLEAR (44_control.md R165). -/
  | clear
  /-- SET_RATES (40_rate_converter.md R90). -/
  | setRates
  /-- ADD_DELTA (41_impulse_injector.md R103). -/
  | addDelta
  /-- ADD_DELTA_FAST (41_impulse_injector.md R105). -/
  | addDeltaFast
  /-- END_FRAME (42_frame_advancer.md R125). -/
  | endFrame
  /-- CLOCKS_NEEDED (42_frame_advancer.md R131). -/
  | clocksNeeded
  /-- READ_SAMPLES (43_sample_extractor.md R153). -/
  | readSamples (stereo : Bool)
  /-- READ_FLOAT_SAMPLES (43_sample_extractor.md R155). -/
  | readFloatSamples (stereo : Bool)
  deriving DecidableEq, Repr

end Sys2Proof
end

