-- ==== Sys2Proof/WellFormed.lean ====
section
/-! DEFINITION. Well-formedness: of an instruction (spec/30_encoding.md R70, R72) and of the
parameters a CORE may be elaborated with (spec/00_scope.md R8, spec/20_memory.md R61). -/

namespace Sys2Proof

/-- Every term of Instr is an instruction the CORE has: a command carries at most the bit S, and only
the two reads carry it (30_encoding.md R70). -/
def Instr.WellFormed : Instr → Prop
  | .clear => True
  | .setRates => True
  | .addDelta => True
  | .addDeltaFast => True
  | .endFrame => True
  | .clocksNeeded => True
  | .readSamples _ => True
  | .readFloatSamples _ => True

namespace Config

/-- 1 <= CAPACITY <= 2^31 - 1 - BUF_EXTRA (00_scope.md R8). -/
abbrev Params.CapacityLegal (p : Params) : Prop :=
  1 ≤ p.capacity ∧ p.capacity ≤ 2 ^ 31 - 1 - bufExtra

/-- 0 <= OUT16_LEN, OUTF_LEN <= 2^32 (00_scope.md R8). -/
abbrev Params.OutLengthsLegal (p : Params) : Prop :=
  p.out16Len ≤ 2 ^ 32 ∧ p.outFLen ≤ 2 ^ 32

/-- REG_BASE is a multiple of 32 (00_scope.md R8, 20_memory.md R54). -/
abbrev Params.RegBaseLegal (p : Params) : Prop :=
  p.regBase % 32 = 0

/-- The sum of the eight coefficients of a row. -/
def rowSum (r : KernelRow) : Int :=
  (r.toList.map BitVec.toInt).sum

/-- The unit-step law of 20_memory.md R61: row p and row 32 - p together sum to 2^15. -/
abbrev Params.KernelLegal (p : Params) : Prop :=
  ∀ i : Fin 33, rowSum (p.kernel.get i) + rowSum (p.kernel.get i.rev) = 32768

/-- The parameter values with which a CORE exists (00_scope.md R8). -/
abbrev Params.Legal (p : Params) : Prop :=
  p.CapacityLegal ∧ p.OutLengthsLegal ∧ p.RegBaseLegal ∧ p.KernelLegal

end Config
end Sys2Proof
end

