-- ==== Sys2Proof/Decode.lean ====
section
/-! DEFINITION. Decoding a command word and encoding a command (spec/30_encoding.md R70, R72, R74,
R78). -/

namespace Sys2Proof

/-- Why a word is illegal (30_encoding.md R74). Every one of them ends in ERR_ILLEGAL
(60_exceptions.md R172). -/
inductive DecodeReject where
  /-- OP = 0x0 or OP = 0x9 .. 0xF. -/
  | unknownOp
  /-- S = 1 with an OP other than the two reads. -/
  | stereoNotAllowed
  /-- RSV, bits 31:5, is not zero. -/
  | reservedBits
  deriving DecidableEq, Repr

/-- OP = w[3:0] (30_encoding.md R70). -/
def opField (w : Word) : BitVec 4 := w.extractLsb' 0 4

/-- S = w[4] (30_encoding.md R70). -/
def stereoField (w : Word) : Bool := w.getLsbD 4

/-- RSV = w[31:5] (30_encoding.md R70). -/
def reservedField (w : Word) : BitVec 27 := w.extractLsb' 5 27

/-- A command whose S must be 0 (30_encoding.md R72). -/
def monoOnly (stereo : Bool) (i : Instr) : Except DecodeReject Instr :=
  if stereo then .error .stereoNotAllowed else .ok i

/-- The opcode map of 30_encoding.md R72. -/
def decodeOp (op : BitVec 4) (stereo : Bool) : Except DecodeReject Instr :=
  match op.toNat with
  | 0x1 => monoOnly stereo .clear
  | 0x2 => monoOnly stereo .setRates
  | 0x3 => monoOnly stereo .addDelta
  | 0x4 => monoOnly stereo .addDeltaFast
  | 0x5 => monoOnly stereo .endFrame
  | 0x6 => monoOnly stereo .clocksNeeded
  | 0x7 => .ok (.readSamples stereo)
  | 0x8 => .ok (.readFloatSamples stereo)
  | _ => .error .unknownOp

/-- Decode a command word (30_encoding.md R72, R74): total, rejecting by name. -/
def decode (w : Word) : Except DecodeReject Instr :=
  if reservedField w = 0 then decodeOp (opField w) (stereoField w)
  else .error .reservedBits

/-- A word of RSV = 0, the bit S and OP (30_encoding.md R70). -/
def commandWord (op : BitVec 4) (stereo : Bool) : Word :=
  (0#27 ++ BitVec.ofBool stereo) ++ op

/-- The command word of an instruction (30_encoding.md R72, R78). -/
def encode : Instr → Word
  | .clear => commandWord 0x1#4 false
  | .setRates => commandWord 0x2#4 false
  | .addDelta => commandWord 0x3#4 false
  | .addDeltaFast => commandWord 0x4#4 false
  | .endFrame => commandWord 0x5#4 false
  | .clocksNeeded => commandWord 0x6#4 false
  | .readSamples stereo => commandWord 0x7#4 stereo
  | .readFloatSamples stereo => commandWord 0x8#4 stereo

/-- Byte k of a value seen as bytes: the byte at the lowest address is bits 7:0
(20_memory.md R55). -/
def littleEndianByte {n : Nat} (v : BitVec n) (k : Nat) : Byte := v.extractLsb' (8 * k) 8

/-- The 32-bit word whose four bytes, lowest address first, are given (20_memory.md R55). -/
def wordOfBytes (b0 b1 b2 b3 : Byte) : Word := b3 ++ b2 ++ b1 ++ b0

/-- The four bytes of a word as the host's memory holds them, lowest address first
(20_memory.md R55). -/
def bytesOfWord (w : Word) : List Byte :=
  [littleEndianByte w 0, littleEndianByte w 1, littleEndianByte w 2, littleEndianByte w 3]

/-- Decode the command at the front of a byte sequence, answering it with the bytes that follow;
none where four bytes are not there. Every command is one 32-bit word (30_encoding.md R75). -/
def decodeBytes : List Byte → Option (Except DecodeReject Instr × List Byte)
  | b0 :: b1 :: b2 :: b3 :: rest => some (decode (wordOfBytes b0 b1 b2 b3), rest)
  | _ => none

/-- The instruction read from a table word of nbits bits w, the bits above nbits being zero. -/
def decodeTableWord (nbits w : Nat) : Option Instr :=
  match decodeBytes (bytesOfWord (BitVec.ofNat 32 (w % 2 ^ nbits))) with
  | some (.ok i, _) => some i
  | _ => none

end Sys2Proof
end

