-- ==== Sys2Proof/Machine/Arith.lean ====
section
/-! DEFINITION. The arithmetic operators of spec/00_scope.md R10. Exact values are Nat or Int; the
operators narrow them. -/

namespace Sys2Proof.Machine

/-- u64(v) = v mod 2^64 (00_scope.md R10). -/
def u64 (v : Nat) : Nat := v % 2 ^ 64

/-- wrap32(v): the signed 32-bit value congruent to v modulo 2^32 (00_scope.md R10). -/
def wrap32 (v : Int) : Int := v.bmod (2 ^ 32)

/-- asr(v, n) = floor(v / 2^n) (00_scope.md R10): division of integers by a positive number rounds
toward minus infinity. -/
def asr (v : Int) (n : Nat) : Int := v / 2 ^ n

/-- ceil_div(a, b) for b > 0: the least q with q x b >= a (00_scope.md R10). -/
def ceilDiv (a b : Nat) : Nat := (a + (b - 1)) / b

/-- clamp16(s) = min(max(s, -32768), 32767) (00_scope.md R10). -/
def clamp16 (s : Int) : Int := min (max s (-32768)) 32767

end Sys2Proof.Machine
end

