-- ==== Sys2Proof/Machine/State.lean ====
section
/-! DEFINITION. The state of the BlipBuf CORE (spec/10_state.md R21), the host's accesses that drive
it (spec/20_memory.md R52, R62), the ways a step can stop, and the state after reset
(spec/70_reset_and_hazards.md R190). -/

namespace Sys2Proof.Machine

/-- A memory as the list of its listed (index, cell) pairs, indices strictly rising. -/
abbrev Cells (w : Nat) := List (Nat × BitVec w)

/-- The outcome codes of 60_exceptions.md R170. -/
inductive Code where
  | ok
  | illegal
  | rates
  | deltaRange
  | clocksRange
  | outRange
  | frameOverflow
  | halted
  deriving DecidableEq, Repr

/-- The registers of the REG window (20_memory.md R52). -/
inductive Reg where
  | cmd
  | arg0
  | arg1
  | status
  | resultLo
  | resultHi
  | avail
  /-- Offset 0x1C and every offset beyond 0x1F (R53). -/
  | reserved
  deriving DecidableEq, Repr

/-- What the host can do to the machine (10_state.md R20). A register access names an absolute host
address and a width in bits; only aligned 32-bit ones are defined (20_memory.md R51). -/
inductive HostAction where
  /-- A host store to a register address. -/
  | store (addr width : Nat) (value : Word)
  /-- A host load from a register address. -/
  | load (addr width : Nat)
  /-- CHECK: read STATUS, stop the script if CODE is not 0 (30_encoding.md R77). -/
  | check
  /-- The host writes element `i` of OUT16 (20_memory.md R50). -/
  | writeOut16 (i : Nat) (value : Half)
  /-- The host reads element `i` of OUT16 (20_memory.md R50). -/
  | readOut16 (i : Nat)
  /-- The host writes element `i` of OUTF (20_memory.md R50). -/
  | writeOutF (i : Nat) (value : Word)
  /-- The host reads element `i` of OUTF (20_memory.md R50). -/
  | readOutF (i : Nat)
  /-- The platform asserts reset (70_reset_and_hazards.md R190). -/
  | assertReset
  deriving DecidableEq, Repr

/-- The machine's state: every row of 10_state.md R21, the host-owned output memories
(20_memory.md R50), the parameters (00_scope.md R8), and the model's own `script` and `reads`. -/
structure State where
  /-- The elaboration parameters, the kernel ROM among them (00_scope.md R8, log 1). -/
  params : Config.Params
  /-- ARG0 (10_state.md R23). -/
  arg0 : Word
  /-- ARG1 (10_state.md R24). -/
  arg1 : Word
  /-- STATUS.CODE (10_state.md R27). -/
  code : BitVec 8
  /-- STATUS.FATAL (10_state.md R27, R34). -/
  fatal : Bool
  /-- RESULT (10_state.md R28). -/
  result : DWord
  /-- AVAIL (10_state.md R29). -/
  avail : Word
  /-- FACTOR (10_state.md R30). -/
  factor : DWord
  /-- OFFSET (10_state.md R31). -/
  offset : DWord
  /-- INTEGRATOR, two's complement (10_state.md R32). -/
  integrator : Word
  /-- BUF (10_state.md R33): the nonzero cells; an unlisted cell is 0 (log 9). -/
  buf : Cells 32
  /-- OUT16 (20_memory.md R56): the elements written so far (log 6). -/
  out16 : Cells 16
  /-- OUTF (20_memory.md R56): the elements written so far (log 6). -/
  outF : Cells 32
  /-- The model's own: the host's accesses still to come, in program order (20_memory.md R62,
  log 3). -/
  script : List HostAction
  /-- The model's own: the values the host's reads have returned, oldest first (log 4). -/
  reads : List Word
  deriving DecidableEq, Repr

/-- Why the machine stops. No command raises a fault: an error of a command is an outcome code
(60_exceptions.md R171). -/
inductive Fault where
  /-- Raised by a host access to an element of OUT16 or OUTF at or past its length: no such element
  exists (00_scope.md R8, log 7). Safe: the machine stops where the spec gives no access. -/
  | noSuchOutputElement
  /-- Raised by a host register access below REG_BASE: the address is not the CORE's (20_memory.md
  R54, log 8). Safe: the machine stops where the spec gives no access. -/
  | addressNotDecoded
  deriving DecidableEq, Repr

/-- Why an instruction has no meaning. -/
inductive Refusal where
  /-- Raised by an arm of exec whose instruction has no meaning yet; no arm does. Safe: the machine
  stops. -/
  | notModelled (mnemonic : String)
  deriving DecidableEq, Repr

/-- A CORE elaborated with the parameters `p`, right after reset (70_reset_and_hazards.md R190), with
no host access pending. -/
def State.resetWith (p : Config.Params) : State :=
  { params := p
    arg0 := 0#32
    arg1 := 0#32
    code := 0#8
    fatal := false
    result := 0#64
    avail := 0#32
    factor := Config.factorReset
    offset := Config.offsetReset
    integrator := 0#32
    buf := []
    out16 := []
    outF := []
    script := []
    reads := [] }

/-- The machine right after reset (70_reset_and_hazards.md R190), elaborated with the parameters of
log 2. -/
def State.reset : State := State.resetWith Config.Params.default

end Sys2Proof.Machine
end

