-- ==== Sys2Proof/Machine/Flags.lean ====
section
/-! DEFINITION. The outcome codes and the STATUS word (spec/10_state.md R27,
spec/60_exceptions.md R170). The CORE has no condition codes, carry or overflow flags
(spec/10_state.md R35): STATUS is all there is. -/

namespace Sys2Proof.Machine

/-- The value of an outcome code (60_exceptions.md R170). -/
def Code.bits : Code → BitVec 8
  | .ok => 0x00#8
  | .illegal => 0x01#8
  | .rates => 0x02#8
  | .deltaRange => 0x03#8
  | .clocksRange => 0x04#8
  | .outRange => 0x05#8
  | .frameOverflow => 0x06#8
  | .halted => 0x07#8

/-- Whether an error sets the FATAL latch (60_exceptions.md R170, column "recorded value"). -/
def Code.setsFatal : Code → Bool
  | .ok => false
  | .illegal => false
  | .rates => false
  | .deltaRange => false
  | .clocksRange => false
  | .outRange => false
  | .frameOverflow => true
  | .halted => false

/-- STATUS as the host reads it: CODE in bits 7:0, FATAL in bit 8, zeros above (10_state.md R27). -/
def statusWord (code : BitVec 8) (fatal : Bool) : Word :=
  (0#23 ++ BitVec.ofBool fatal) ++ code

end Sys2Proof.Machine
end

