-- ==== Sys2Proof/Machine/Ops.lean ====
section
/-! DEFINITION. The named operations over memory and registers: the updates of each piece of state,
reading and writing cells, the kernel ROM, the window move of a read, raising an error
(spec/60_exceptions.md R171) and the reset event (spec/70_reset_and_hazards.md R190). -/

namespace Sys2Proof.Machine

/-! ### Registers -/

/-- ARG0 <- v (44_control.md R166). -/
def State.withArg0 (s : State) (v : Word) : State := { s with arg0 := v }

/-- ARG1 <- v (44_control.md R166). -/
def State.withArg1 (s : State) (v : Word) : State := { s with arg1 := v }

/-- STATUS.CODE <- v (10_state.md R27). -/
def State.withCode (s : State) (v : BitVec 8) : State := { s with code := v }

/-- FATAL <- v (10_state.md R34). -/
def State.withFatal (s : State) (v : Bool) : State := { s with fatal := v }

/-- RESULT <- v (10_state.md R28). -/
def State.withResult (s : State) (v : DWord) : State := { s with result := v }

/-- AVAIL <- v (10_state.md R29). -/
def State.withAvail (s : State) (v : Word) : State := { s with avail := v }

/-- FACTOR <- v (10_state.md R30). -/
def State.withFactor (s : State) (v : DWord) : State := { s with factor := v }

/-- OFFSET <- v (10_state.md R31). -/
def State.withOffset (s : State) (v : DWord) : State := { s with offset := v }

/-- INTEGRATOR <- v (10_state.md R32). -/
def State.withIntegrator (s : State) (v : Word) : State := { s with integrator := v }

/-- BUF as a whole (10_state.md R33). -/
def State.withBuf (s : State) (v : Cells 32) : State := { s with buf := v }

/-- OUT16 as a whole (20_memory.md R56). -/
def State.withOut16 (s : State) (v : Cells 16) : State := { s with out16 := v }

/-- OUTF as a whole (20_memory.md R56). -/
def State.withOutF (s : State) (v : Cells 32) : State := { s with outF := v }

/-- The host's accesses still to come (log 3). -/
def State.withScript (s : State) (v : List HostAction) : State := { s with script := v }

/-- The values read so far (log 4). -/
def State.withReads (s : State) (v : List Word) : State := { s with reads := v }

/-! ### Memory as a list of cells -/

/-- What is listed at index i, if anything. -/
def cellFind {w : Nat} : Cells w → Nat → Option (BitVec w)
  | [], _ => none
  | (j, x) :: m, i => if j = i then some x else cellFind m i

/-- List the value v at index i, keeping the order of indices. -/
def cellPut {w : Nat} : Cells w → Nat → BitVec w → Cells w
  | [], i, v => [(i, v)]
  | (j, x) :: m, i, v =>
    if i < j then (i, v) :: (j, x) :: m
    else if j = i then (i, v) :: m
    else (j, x) :: cellPut m i v

/-- List nothing at index i. -/
def cellErase {w : Nat} : Cells w → Nat → Cells w
  | [], _ => []
  | (j, x) :: m, i => if j = i then cellErase m i else (j, x) :: cellErase m i

/-- The canonical order: indices strictly rising. -/
abbrev Ascending {w : Nat} (m : Cells w) : Prop := m.Pairwise (fun a b => a.1 < b.1)

/-! ### BUF (10_state.md R33) -/

/-- Read BUF[i]. An unlisted cell is 0, what reset leaves in every cell (70_reset_and_hazards.md R190,
log 9). -/
def bufRead (m : Cells 32) (i : Nat) : Word := (cellFind m i).getD 0#32

/-- BUF[i] <- v, keeping the canonical form: a zero is not listed. -/
def bufWrite (m : Cells 32) (i : Nat) (v : Word) : Cells 32 :=
  if v = 0#32 then cellErase m i else cellPut m i v

/-- BUF[i] <- wrap32(BUF[i] + c) (00_scope.md R12). -/
def bufAdd (m : Cells 32) (i : Nat) (c : Int) : Cells 32 :=
  bufWrite m i (BitVec.ofInt 32 ((bufRead m i).toInt + c))

/-- Add the values of a list to consecutive cells from `base` up (41_impulse_injector.md R103,
R105). -/
def addCells (m : Cells 32) (base : Nat) : List Int → Cells 32
  | [] => m
  | c :: cs => addCells (bufAdd m base c) (base + 1) cs

/-- The cells BUF[0 .. n-1] in order. -/
def bufFront (m : Cells 32) (n : Nat) : List Word := (List.range n).map (bufRead m)

/-- The number of cells of BUF: CAPACITY + BUF_EXTRA (10_state.md R33). -/
def bufLen (p : Config.Params) : Nat := p.capacity + Config.bufExtra

/-- How many cells from index 0 the window move of a read covers, drained ones included: remain + n
of 43_sample_extractor.md R147, for either value of SHIFT_WINDOW. -/
def shiftSpan (p : Config.Params) (avail : Nat) : Nat :=
  match p.shiftWindow with
  | .availPlusExtra => avail + Config.bufExtra
  | .wholeBuffer => bufLen p

/-- SHIFT(n) over the cells below `span` (43_sample_extractor.md R147): the n cells at the front are
dropped, the others below `span` move down by n, the vacated ones become 0, and cells from `span` on
are not touched. -/
def shiftCells (m : Cells 32) (n span : Nat) : Cells 32 :=
  m.filterMap fun e =>
    if e.1 < span then (if e.1 < n then none else some (e.1 - n, e.2)) else some e

/-! ### The output memories (20_memory.md R56) -/

/-- Write a run of elements from index i, `step` apart; every other element keeps its value
(20_memory.md R56, 43_sample_extractor.md R149). -/
def writeRun {w : Nat} (m : Cells w) (i step : Nat) : List (BitVec w) → Cells w
  | [] => m
  | v :: vs => writeRun (cellPut m i v) (i + step) step vs

/-- Element i of OUT16 as the host reads it; one nothing has written is a free value (log 6). -/
def out16Read (m : Cells 16) (i : Nat) : Half := (cellFind m i).getD (Config.out16Initial i)

/-- Element i of OUTF as the host reads it; one nothing has written is a free value (log 6). -/
def outFRead (m : Cells 32) (i : Nat) : Word := (cellFind m i).getD (Config.outFInitial i)

/-! ### Canonical form -/

/-- BUF's canonical form: rising indices, no zero listed, every index a cell of BUF. -/
abbrev BufWf (p : Config.Params) (m : Cells 32) : Prop :=
  Ascending m ∧ ∀ e ∈ m, e.2 ≠ 0#32 ∧ e.1 < bufLen p

/-- An output memory's canonical form: rising indices, every index an element of it. -/
abbrev OutWf {w : Nat} (len : Nat) (m : Cells w) : Prop :=
  Ascending m ∧ ∀ e ∈ m, e.1 < len

/-- All three memories are in canonical form. -/
abbrev Memory.wf (s : State) : Prop :=
  BufWf s.params s.buf ∧ OutWf s.params.out16Len s.out16 ∧ OutWf s.params.outFLen s.outF

/-! ### The kernel ROM (20_memory.md R59) -/

/-- KERNEL[row][tap] as a signed integer, row 0 .. 32, tap 0 .. 7. -/
def kernelCoeff (K : Config.Kernel) (row tap : Nat) : Int :=
  ((K.get (Fin.ofNat 33 row)).get (Fin.ofNat 8 tap)).toInt

/-! ### Ending a command -/

/-- `raise E`: the command ends with the outcome code E and changes nothing but STATUS.CODE, and
FATAL for ERR_FRAME_OVERFLOW (00_scope.md R11, 60_exceptions.md R171). There is no control transfer,
no saved state and no return from an error (60_exceptions.md R174, R175). -/
def raise (c : Code) (s : State) : Host.Outcome State Fault Refusal :=
  .next ((s.withFatal (s.fatal || c.setsFatal)).withCode c.bits)

/-- The last line of a successful command: CODE <- OK. -/
def finish (s : State) : Host.Outcome State Fault Refusal :=
  .next (s.withCode Code.ok.bits)

/-- The check every command starts with: while FATAL = 1 it is refused with ERR_HALTED and has no
other effect (60_exceptions.md R173, R176; log 13). -/
def unlessHalted (s : State) (command : State → Host.Outcome State Fault Refusal) :
    Host.Outcome State Fault Refusal :=
  if s.fatal then raise .halted s else command s

/-! ### Phase and reset -/

/-- The initial phase: min(FACTOR >> 1, TIME_UNIT >> 1) (44_control.md R165). -/
def initialPhase (factor : DWord) : DWord :=
  BitVec.ofNat 64 (min (factor.toNat / 2) (Config.timeUnit / 2))

/-- The reset event (70_reset_and_hazards.md R190). OUT16, OUTF and the ROM are not touched, and the
host's own script and read values are not the CORE's (log 14). -/
def resetEvent (s : State) : State :=
  { s with
    arg0 := 0#32
    arg1 := 0#32
    code := Code.ok.bits
    fatal := false
    result := 0#64
    avail := 0#32
    factor := Config.factorReset
    offset := initialPhase Config.factorReset
    integrator := 0#32
    buf := [] }

end Sys2Proof.Machine
end

