-- ==== Sys2Proof/Machine/Operands.lean ====
section
/-! DEFINITION. The operands of a command (spec/30_encoding.md R71, R73) and the values the commands
compute from them: positions (spec/41_impulse_injector.md R100), the cells an injection adds (R103,
R105), a frame's end (spec/42_frame_advancer.md R125), samples (spec/43_sample_extractor.md R140). -/

namespace Sys2Proof.Machine

/-! ### Operand assembly (30_encoding.md R71) -/

/-- a0 = zext_32(ARG0). -/
def operand0 (s : State) : Nat := s.arg0.toNat

/-- a1 = zext_32(ARG1). -/
def operand1 (s : State) : Nat := s.arg1.toNat

/-- d = sext_32(ARG1). -/
def deltaOperand (s : State) : Int := s.arg1.toInt

/-- The distance of two samples in the output: 2 with S = 1, else 1 (43_sample_extractor.md R140,
R149). -/
def outStep (stereo : Bool) : Nat := if stereo then 2 else 1

/-! ### SET_RATES (40_rate_converter.md R90) -/

/-- ceil_div(TIME_UNIT x sr, cr), exact. -/
def rateFactor (cr sr : Nat) : Nat := ceilDiv (Config.timeUnit * sr) cr

/-! ### The position of a clock time (41_impulse_injector.md R100) -/

/-- pos = u64(t x FACTOR + OFFSET). DEDUCED (log 21): for an injection this reads FACTOR and OFFSET, as
R100 and R107 say, although R108 says that no injection reads them; R108 is taken to say that none
writes them. -/
def clockPos (s : State) (t : Nat) : Nat := u64 (t * s.factor.toNat + s.offset.toNat)

/-- fixed = pos >> PRE_SHIFT, a 32-bit number. -/
def fixedPos (s : State) (t : Nat) : Nat := clockPos s t / 2 ^ Config.preShift

/-- target = AVAIL + fixed[31:20]. DEDUCED (log 21): for an injection this reads AVAIL, as R100 and R107
say, although R108 says that no injection reads it; R108 is taken to say that none writes it. -/
def targetCell (s : State) (t : Nat) : Nat := s.avail.toNat + fixedPos s t / 2 ^ Config.fracBits

/-- phase = fixed[19:15]. -/
def phaseOf (fixed : Nat) : Nat := fixed / 2 ^ Config.deltaBits % Config.phaseCount

/-- interp = fixed[14:0]. -/
def interpOf (fixed : Nat) : Nat := fixed % 2 ^ Config.deltaBits

/-- The 15-bit weight of a fast injection: fixed[19:5] (41_impulse_injector.md R105). -/
def fastWeight (fixed : Nat) : Nat := fixed / 2 ^ 5 % 2 ^ 15

/-- The range check of both injections: target > CAPACITY + END_FRAME_EXTRA (41_impulse_injector.md
R102, R106). -/
abbrev TargetOutOfRange (s : State) (t : Nat) : Prop :=
  s.params.capacity + Config.endFrameExtra < targetCell s t

/-! ### What an injection adds -/

/-- d2, the share of row phase + 1 (41_impulse_injector.md R103). -/
def deltaShare2 (d : Int) (interp : Nat) : Int := asr (wrap32 (d * interp)) Config.deltaBits

/-- d1, the share of row phase (41_impulse_injector.md R103). -/
def deltaShare1 (d : Int) (interp : Nat) : Int := wrap32 (d - deltaShare2 d interp)

/-- What a precise injection adds to cell target + k of its first half (41_impulse_injector.md
R103). -/
def firstHalfTap (K : Config.Kernel) (phase : Nat) (d1 d2 : Int) (k : Nat) : Int :=
  kernelCoeff K phase k * d1 + kernelCoeff K (phase + 1) k * d2

/-- What a precise injection adds to cell target + 8 + k: the mirrored rows with their taps reversed
(41_impulse_injector.md R103, 20_memory.md R59). -/
def secondHalfTap (K : Config.Kernel) (phase : Nat) (d1 d2 : Int) (k : Nat) : Int :=
  kernelCoeff K (32 - phase) (7 - k) * d1 + kernelCoeff K (31 - phase) (7 - k) * d2

/-- The 16 values a precise injection adds to the cells from target up (41_impulse_injector.md
R103). -/
def preciseTaps (K : Config.Kernel) (fixed : Nat) (d : Int) : List Int :=
  let phase := phaseOf fixed
  let d2 := deltaShare2 d (interpOf fixed)
  let d1 := deltaShare1 d (interpOf fixed)
  (List.range Config.halfWidth).map (firstHalfTap K phase d1 d2)
    ++ (List.range Config.halfWidth).map (secondHalfTap K phase d1 d2)

/-- The 2 values a fast injection adds to the cells from target + 7 up (41_impulse_injector.md
R105). -/
def fastTaps (fixed : Nat) (d : Int) : List Int :=
  let d2 := wrap32 (d * fastWeight fixed)
  [wrap32 (d * Config.deltaUnit) - d2, d2]

/-! ### The end of a frame (42_frame_advancer.md R125) -/

/-- n = off >> TIME_BITS with off = u64(T x FACTOR + OFFSET): the newly available samples. -/
def frameSamples (s : State) (T : Nat) : Nat := clockPos s T / Config.timeUnit

/-- off & (TIME_UNIT - 1): the OFFSET the frame leaves. -/
def frameRemainder (s : State) (T : Nat) : Nat := clockPos s T % Config.timeUnit

/-! ### The clocks that N more samples take (42_frame_advancer.md R131) -/

/-- The value CLOCKS_NEEDED leaves in RESULT. FACTOR = 0 cannot arise (10_state.md R37); the value
there is free (log 10). -/
def clocksFor (s : State) (N : Nat) : DWord :=
  let needed := Config.timeUnit * N
  if needed < s.offset.toNat then 0#64
  else if s.factor.toNat = 0 then Config.clocksAtZeroFactor (needed - s.offset.toNat)
  else BitVec.ofNat 64 (ceilDiv (needed - s.offset.toNat) s.factor.toNat)

/-! ### Samples (43_sample_extractor.md R140) -/

/-- s = clamp16(asr(acc, DELTA_BITS)) (43_sample_extractor.md R144, R146). -/
def sampleOf (acc : Word) : Int := clamp16 (asr acc.toInt Config.deltaBits)

/-- acc <- wrap32(acc - (s << (DELTA_BITS - BASS_SHIFT))) (43_sample_extractor.md R145). -/
def highPass (acc : Word) (s : Int) : Word :=
  BitVec.ofInt 32 (acc.toInt - s * 2 ^ (Config.deltaBits - Config.bassShift))

/-- acc <- wrap32(acc + cell) (43_sample_extractor.md R140). -/
def integrate (acc cell : Word) : Word := BitVec.ofInt 32 (acc.toInt + cell.toInt)

/-- One pass of the loop of R140: the sample taken and the sum left, for either value of SAMPLE_ORDER
(43_sample_extractor.md R140, R142). -/
def extractCell (order : Config.SampleOrder) (acc cell : Word) : Int × Word :=
  match order with
  | .integrateFirst =>
    let sum := integrate acc cell
    (sampleOf sum, highPass sum (sampleOf sum))
  | .sampleFirst => (sampleOf acc, highPass (integrate acc cell) (sampleOf acc))

/-- The loop of R140 over cells in order: the samples taken and the sum left. -/
def extractCells (order : Config.SampleOrder) : Word → List Word → List Int × Word
  | acc, [] => ([], acc)
  | acc, cell :: cells =>
    let one := extractCell order acc cell
    let more := extractCells order one.2 cells
    (one.1 :: more.1, more.2)

/-- The 16-bit element written for s: s mod 2^16 (43_sample_extractor.md R154). -/
def pcm16 (s : Int) : Half := BitVec.ofInt 16 s

/-- The binary32 pattern of s / 32768 (43_sample_extractor.md R156): 0 for s = 0, else the sign, the
biased exponent 127 + e - 15 and the fraction (m x 2^(23 - e)) mod 2^23, with m = |s| and
e = floor(log2 m). -/
def float32 (s : Int) : Word :=
  let m := s.natAbs
  let e := Nat.log2 m
  if s = 0 then 0#32
  else BitVec.ofNat 32 ((if s < 0 then 2 ^ 31 else 0) + 2 ^ 23 * (127 + e - 15)
    + m * 2 ^ (23 - e) % 2 ^ 23)

end Sys2Proof.Machine
end

