-- ==== Sys2Proof/Machine/Control.lean ====
section
/-! DEFINITION. The control family: CLEAR (spec/44_control.md R165), and a word that is no command
(spec/60_exceptions.md R172). -/

namespace Sys2Proof.Machine

/-- The state CLEAR leaves, but for CODE (44_control.md R165). -/
def clearState (s : State) : State :=
  (((s.withOffset (initialPhase s.factor)).withAvail 0#32).withIntegrator 0#32).withBuf []

/-- CLEAR (44_control.md R165). -/
def execClear (s : State) : Host.Outcome State Fault Refusal :=
  unlessHalted s fun s => finish (clearState s)

/-- A command word that matches no row of 30_encoding.md R72: ERR_ILLEGAL, or ERR_HALTED while
FATAL = 1 (60_exceptions.md R172, R173). -/
def execIllegal (s : State) : Host.Outcome State Fault Refusal :=
  unlessHalted s fun s => raise .illegal s

end Sys2Proof.Machine
end

