-- ==== Sys2Proof/Machine/FrameAdvancer.lean ====
section
/-! DEFINITION. The frame advancer: END_FRAME (spec/42_frame_advancer.md R125) and CLOCKS_NEEDED
(R131). -/

namespace Sys2Proof.Machine

/-- END_FRAME (42_frame_advancer.md R125, R127). -/
def execEndFrame (s : State) : Host.Outcome State Fault Refusal :=
  unlessHalted s fun s =>
    let T := operand0 s
    let available := s.avail.toNat + frameSamples s T
    if s.params.capacity < available then raise .frameOverflow s
    else finish ((s.withAvail (BitVec.ofNat 32 available)).withOffset
      (BitVec.ofNat 64 (frameRemainder s T)))

/-- CLOCKS_NEEDED (42_frame_advancer.md R131). -/
def execClocksNeeded (s : State) : Host.Outcome State Fault Refusal :=
  unlessHalted s fun s =>
    let N := operand0 s
    if s.params.capacity < s.avail.toNat + N then raise .clocksRange s
    else finish (s.withResult (clocksFor s N))

end Sys2Proof.Machine
end

