-- ==== Sys2Proof/Machine/ImpulseInjector.lean ====
section
/-! DEFINITION. The impulse injector: ADD_DELTA (spec/41_impulse_injector.md R103) and ADD_DELTA_FAST
(R105). -/

namespace Sys2Proof.Machine

/-- ADD_DELTA (41_impulse_injector.md R103). -/
def execAddDelta (s : State) : Host.Outcome State Fault Refusal :=
  unlessHalted s fun s =>
    let t := operand0 s
    if TargetOutOfRange s t then raise .deltaRange s
    else finish (s.withBuf (addCells s.buf (targetCell s t)
      (preciseTaps s.params.kernel (fixedPos s t) (deltaOperand s))))

/-- ADD_DELTA_FAST (41_impulse_injector.md R105, R106). -/
def execAddDeltaFast (s : State) : Host.Outcome State Fault Refusal :=
  unlessHalted s fun s =>
    let t := operand0 s
    if TargetOutOfRange s t then raise .deltaRange s
    else finish (s.withBuf (addCells s.buf (targetCell s t + 7)
      (fastTaps (fixedPos s t) (deltaOperand s))))

end Sys2Proof.Machine
end

