-- ==== Sys2Proof/Machine/RateConverter.lean ====
section
/-! DEFINITION. The rate converter: SET_RATES (spec/40_rate_converter.md R90). -/

namespace Sys2Proof.Machine

/-- Whether SET_RATES fails: a zero rate, then the ratio, then the factor's width
(40_rate_converter.md R90, 60_exceptions.md R173). -/
abbrev RatesRejected (cr sr : Nat) : Prop :=
  cr = 0 ∨ sr = 0 ∨ Config.maxRatio * sr < cr ∨ 2 ^ 64 - 1 < rateFactor cr sr

/-- SET_RATES (40_rate_converter.md R90). -/
def execSetRates (s : State) : Host.Outcome State Fault Refusal :=
  unlessHalted s fun s =>
    if RatesRejected (operand0 s) (operand1 s) then raise .rates s
    else finish (s.withFactor (BitVec.ofNat 64 (rateFactor (operand0 s) (operand1 s))))

end Sys2Proof.Machine
end

