-- ==== Sys2Proof/Machine/SampleExtractor.lean ====
section
/-! DEFINITION. The sample extractor: READ_SAMPLES (spec/43_sample_extractor.md R153) and
READ_FLOAT_SAMPLES (R155) over the procedure EXTRACT (R140). -/

namespace Sys2Proof.Machine

/-- n = min(count, AVAIL) (43_sample_extractor.md R141). -/
def readCount (s : State) : Nat := min (operand0 s) s.avail.toNat

/-- The output range check: base + (n - 1) x step >= OUT_LEN, exact (43_sample_extractor.md R152). -/
abbrev OutOfRange (outLen : Nat) (stereo : Bool) (s : State) : Prop :=
  outLen ≤ operand1 s + (readCount s - 1) * outStep stereo

/-- The samples a read of n cells takes and the sum it leaves (43_sample_extractor.md R140). -/
def readRun (s : State) : List Int × Word :=
  extractCells s.params.sampleOrder s.integrator (bufFront s.buf (readCount s))

/-- What EXTRACT writes beside the output memory: INTEGRATOR, BUF (the window move), AVAIL and RESULT
(43_sample_extractor.md R140, R143, R147). -/
def drainState (s : State) : State :=
  let n := readCount s
  (((s.withIntegrator (readRun s).2).withBuf
    (shiftCells s.buf n (shiftSpan s.params s.avail.toNat))).withAvail
      (BitVec.ofNat 32 (s.avail.toNat - n))).withResult (BitVec.ofNat 64 n)

/-- EXTRACT (43_sample_extractor.md R140): `outLen` elements in the output memory, which
`writeSamples` writes a run of samples to. -/
def extract (outLen : Nat) (writeSamples : State → List Int → State) (stereo : Bool) (s : State) :
    Host.Outcome State Fault Refusal :=
  if readCount s = 0 then finish (s.withResult 0#64)
  else if OutOfRange outLen stereo s then raise .outRange s
  else finish (writeSamples (drainState s) (readRun s).1)

/-- OutWrite16 of a run of samples (43_sample_extractor.md R153, R154). -/
def writeSamples16 (stereo : Bool) (s : State) (samples : List Int) : State :=
  s.withOut16 (writeRun s.out16 (operand1 s) (outStep stereo) (samples.map pcm16))

/-- OutWriteF of a run of samples (43_sample_extractor.md R155). -/
def writeSamplesF (stereo : Bool) (s : State) (samples : List Int) : State :=
  s.withOutF (writeRun s.outF (operand1 s) (outStep stereo) (samples.map float32))

/-- READ_SAMPLES (43_sample_extractor.md R153). -/
def execReadSamples (stereo : Bool) (s : State) : Host.Outcome State Fault Refusal :=
  unlessHalted s fun s => extract s.params.out16Len (writeSamples16 stereo) stereo s

/-- READ_FLOAT_SAMPLES (43_sample_extractor.md R155). -/
def execReadFloatSamples (stereo : Bool) (s : State) : Host.Outcome State Fault Refusal :=
  unlessHalted s fun s => extract s.params.outFLen (writeSamplesF stereo) stereo s

end Sys2Proof.Machine
end

