-- ==== Sys2Proof/Machine/Dispatch.lean ====
section
/-! DEFINITION. What each instruction does: one arm per constructor of Instr
(spec/opcode_table.json). -/

namespace Sys2Proof.Machine

def exec (i : Instr) (s : State) : Host.Outcome State Fault Refusal :=
  match i with
  | .clear => Sys2Proof.Machine.execClear s
  | .setRates => Sys2Proof.Machine.execSetRates s
  | .addDelta => Sys2Proof.Machine.execAddDelta s
  | .addDeltaFast => Sys2Proof.Machine.execAddDeltaFast s
  | .endFrame => Sys2Proof.Machine.execEndFrame s
  | .clocksNeeded => Sys2Proof.Machine.execClocksNeeded s
  | .readSamples stereo => Sys2Proof.Machine.execReadSamples stereo s
  | .readFloatSamples stereo => Sys2Proof.Machine.execReadFloatSamples stereo s

end Sys2Proof.Machine
end

