-- ==== Sys2Proof/Machine/HostPort.lean ====
section
/-! DEFINITION. The host's accesses: the register window (spec/20_memory.md R51-R54,
spec/44_control.md R166, R167), a write to CMD (spec/10_state.md R26), the output memories
(spec/20_memory.md R50, R56), and performing the next access of the host's script (R62). -/

namespace Sys2Proof.Machine

/-! ### The register window -/

/-- The register at an aligned offset (20_memory.md R52); every other offset is reserved (R53). -/
def regAt (offset : Nat) : Reg :=
  match offset with
  | 0x00 => .cmd
  | 0x04 => .arg0
  | 0x08 => .arg1
  | 0x0C => .status
  | 0x10 => .resultLo
  | 0x14 => .resultHi
  | 0x18 => .avail
  | _ => .reserved

/-- The offset of a register (20_memory.md R52). -/
def regOffset : Reg → Nat
  | .cmd => 0x00
  | .arg0 => 0x04
  | .arg1 => 0x08
  | .status => 0x0C
  | .resultLo => 0x10
  | .resultHi => 0x14
  | .avail => 0x18
  | .reserved => 0x1C

/-- The register an access reaches: none unless it is 32 bits wide and aligned (20_memory.md R51). -/
def regAccess (offset width : Nat) : Option Reg :=
  if width = 32 ∧ offset % 4 = 0 then some (regAt offset) else none

/-- What a read of a register returns (44_control.md R167, 20_memory.md R53). -/
def readReg (s : State) : Reg → Word
  | .cmd => 0#32
  | .arg0 => s.arg0
  | .arg1 => s.arg1
  | .status => statusWord s.code s.fatal
  | .resultLo => s.result.extractLsb' 0 32
  | .resultHi => s.result.extractLsb' 32 32
  | .avail => s.avail
  | .reserved => 0#32

/-- A write of w to CMD: the one command w selects, completed at once (10_state.md R26,
30_encoding.md R72, 60_exceptions.md R172). Every command, and an illegal word, is refused while
FATAL = 1 (60_exceptions.md R173, R176), which is checked inside them (log 13). -/
def performCommand (w : Word) (s : State) : Host.Outcome State Fault Refusal :=
  match decode w with
  | .ok i => exec i s
  | .error _ => execIllegal s

/-- A write to a register (44_control.md R166): read-only and reserved ones ignore it
(20_memory.md R53). -/
def writeReg (s : State) (r : Reg) (v : Word) : Host.Outcome State Fault Refusal :=
  match r with
  | .cmd => performCommand v s
  | .arg0 => .next (s.withArg0 v)
  | .arg1 => .next (s.withArg1 v)
  | .status => .next s
  | .resultLo => .next s
  | .resultHi => .next s
  | .avail => .next s
  | .reserved => .next s

/-- Record the value a host read returns (log 4). -/
def returnValue (s : State) (v : Word) : State := s.withReads (s.reads ++ [v])

/-- A host store. One that is narrow, wide or misaligned has no effect (20_memory.md R51). An address
below REG_BASE is not the CORE's (log 8). -/
def hostStore (s : State) (addr width : Nat) (v : Word) : Host.Outcome State Fault Refusal :=
  if addr < s.params.regBase then .fault .addressNotDecoded
  else
    match regAccess (addr - s.params.regBase) width with
    | some r => writeReg s r v
    | none => .next s

/-- A host load. One that is narrow, wide or misaligned returns 0 (20_memory.md R51); no load changes
a register (44_control.md R167). -/
def hostLoad (s : State) (addr width : Nat) : Host.Outcome State Fault Refusal :=
  if addr < s.params.regBase then .fault .addressNotDecoded
  else
    match regAccess (addr - s.params.regBase) width with
    | some r => .next (returnValue s (readReg s r))
    | none => .next (returnValue s 0#32)

/-! ### Bytes of what the host sees (20_memory.md R55) -/

/-- The byte at byte address a of OUT16. -/
def out16Byte (s : State) (a : Nat) : Byte := littleEndianByte (out16Read s.out16 (a / 2)) (a % 2)

/-- The byte at byte address a of OUTF. -/
def outFByte (s : State) (a : Nat) : Byte := littleEndianByte (outFRead s.outF (a / 4)) (a % 4)

/-- The byte at offset a of the REG window. -/
def regByte (s : State) (a : Nat) : Byte :=
  littleEndianByte (readReg s (regAt (a - a % 4))) (a % 4)

/-! ### One access of the host -/

/-- Perform one access of the host, which is no longer in the script. -/
def performAction (a : HostAction) (s : State) : Host.Outcome State Fault Refusal :=
  match a with
  | .store addr width v => hostStore s addr width v
  | .load addr width => hostLoad s addr width
  | .check =>
    let r := returnValue s (readReg s .status)
    .next (if s.code = Code.ok.bits then r else r.withScript [])
  | .writeOut16 i v =>
    if i < s.params.out16Len then .next (s.withOut16 (cellPut s.out16 i v))
    else .fault .noSuchOutputElement
  | .readOut16 i =>
    if i < s.params.out16Len then .next (returnValue s ((out16Read s.out16 i).setWidth 32))
    else .fault .noSuchOutputElement
  | .writeOutF i v =>
    if i < s.params.outFLen then .next (s.withOutF (cellPut s.outF i v))
    else .fault .noSuchOutputElement
  | .readOutF i =>
    if i < s.params.outFLen then .next (returnValue s (outFRead s.outF i))
    else .fault .noSuchOutputElement
  | .assertReset => .next (resetEvent s)

/-- The machine's step: the next access of the host in program order (20_memory.md R62); with none
pending the CORE holds its state and does nothing (60_exceptions.md R182, log 5). -/
def hostStep (s : State) : Host.Outcome State Fault Refusal :=
  match s.script with
  | [] => .next s
  | a :: rest => performAction a (s.withScript rest)

/-- The host stores w to CMD as its very next access (10_state.md R26, log 3). -/
def placeCommand (s : State) (w : Word) : State :=
  s.withScript (.store (s.params.regBase + regOffset .cmd) 32 w :: s.script)

end Sys2Proof.Machine
end

