-- ==== Sys2Proof/Machine/Step.lean ====
section
/-! DEFINITION. One step of the machine: the host's next access (spec/20_memory.md R62). -/

namespace Sys2Proof.Machine

/-- One step (20_memory.md R57, R62). -/
def step : State → Host.Outcome State Fault Refusal := hostStep

/-- s with a table word as the host's next store to CMD: the instruction the next step runs. -/
def State.withFetchWord (s : State) (nbits w : Nat) : State :=
  placeCommand s (BitVec.ofNat 32 (w % 2 ^ nbits))

end Sys2Proof.Machine
end

