-- ==== Sys2Proof/Machine/Script.lean ====
section
/-! DEFINITION. The statements of host command scripts and their expansion into host accesses
(spec/30_encoding.md R76, R77), and construction (spec/70_reset_and_hazards.md R192). -/

namespace Sys2Proof.Machine

/-- A statement of a host command script (30_encoding.md R76, R77). CONSTRUCT is `construct` and
`constructWithRates` below: it makes a machine, it is no access to one. -/
inductive Statement where
  | clear
  | setRates (clockRate sampleRate : Word)
  | addDelta (clockTime delta : Word)
  | addDeltaFast (clockTime delta : Word)
  | endFrame (clockDuration : Word)
  | clocksNeeded (sampleCount : Word)
  | readSamples (sampleCount baseIndex : Word) (stereo : Bool)
  | readFloatSamples (sampleCount baseIndex : Word) (stereo : Bool)
  | wr (r : Reg) (v : Word)
  | rd (r : Reg)
  | rdResult
  | check
  | nop
  deriving DecidableEq, Repr

/-- WR <reg>, <value>: a store to REG (30_encoding.md R76). -/
def storeTo (p : Config.Params) (r : Reg) (v : Word) : HostAction :=
  .store (p.regBase + regOffset r) 32 v

/-- RD <reg>: a load from REG (30_encoding.md R76). -/
def loadFrom (p : Config.Params) (r : Reg) : HostAction := .load (p.regBase + regOffset r) 32

/-- WR ARG0; WR ARG1; WR CMD: the three stores of a command statement, in this order
(30_encoding.md R76). -/
def commandStores (p : Config.Params) (a0 a1 : Word) (i : Instr) : List HostAction :=
  [storeTo p .arg0 a0, storeTo p .arg1 a1, storeTo p .cmd (encode i)]

/-- The host accesses of a statement (30_encoding.md R76, R77). -/
def expand (p : Config.Params) : Statement → List HostAction
  | .clear => commandStores p 0#32 0#32 .clear
  | .setRates cr sr => commandStores p cr sr .setRates
  | .addDelta t d => commandStores p t d .addDelta
  | .addDeltaFast t d => commandStores p t d .addDeltaFast
  | .endFrame T => commandStores p T 0#32 .endFrame
  | .clocksNeeded N => commandStores p N 0#32 .clocksNeeded
  | .readSamples n base stereo => commandStores p n base (.readSamples stereo)
  | .readFloatSamples n base stereo => commandStores p n base (.readFloatSamples stereo)
  | .wr r v => [storeTo p r v]
  | .rd r => [loadFrom p r]
  | .rdResult => [loadFrom p .resultLo, loadFrom p .resultHi]
  | .check => [.check]
  | .nop => []

/-- CONSTRUCT <capacity>: elaboration, refused for parameters outside 00_scope.md R8, then reset
(30_encoding.md R77, 70_reset_and_hazards.md R192). -/
def construct (p : Config.Params) : Option State :=
  if p.Legal then some (State.resetWith p) else none

/-- CONSTRUCT <capacity>, <clockRate>, <sampleRate>: the same with SET_RATES and CHECK as the host's
first accesses (30_encoding.md R77). -/
def constructWithRates (p : Config.Params) (cr sr : Word) : Option State :=
  (construct p).map fun s => s.withScript (expand p (.setRates cr sr) ++ expand p .check)

end Sys2Proof.Machine
end

