-- ==== Sys2Proof/Safety.lean ====
section
/-! DEFINITION. What a legal state is (spec/10_state.md R27, R37, spec/00_scope.md R8) and what a safe
step is, in the terms the statements use. -/

namespace Sys2Proof.Machine

/-- AVAIL <= CAPACITY, OFFSET < 2^52, FACTOR >= 2^32 (10_state.md R37). -/
abbrev RegistersLegal (s : State) : Prop :=
  s.avail.toNat ≤ s.params.capacity ∧ s.offset.toNat < Config.timeUnit ∧ 2 ^ 32 ≤ s.factor.toNat

/-- CODE is a code of 60_exceptions.md R170, and FATAL = 1 only with ERR_FRAME_OVERFLOW or ERR_HALTED
(10_state.md R27). -/
abbrev StatusLegal (s : State) : Prop :=
  s.code.toNat ≤ 7 ∧
    (s.fatal = true → s.code = Code.frameOverflow.bits ∨ s.code = Code.halted.bits)

/-- The invariant of a CORE: legal parameters, registers, status and memories. -/
abbrev Legal (s : State) : Prop :=
  s.params.Legal ∧ RegistersLegal s ∧ StatusLegal s ∧ Memory.wf s

/-- The access names something the CORE has: a register address at or above REG_BASE (log 8), an
element below its memory's length (log 7). -/
def AccessExists (p : Config.Params) : HostAction → Prop
  | .store addr _ _ => p.regBase ≤ addr
  | .load addr _ => p.regBase ≤ addr
  | .check => True
  | .writeOut16 i _ => i < p.out16Len
  | .readOut16 i => i < p.out16Len
  | .writeOutF i _ => i < p.outFLen
  | .readOutF i => i < p.outFLen
  | .assertReset => True

/-- A step is safe when it stops for no reason and leaves a legal state. -/
def SafeStep (s : State) : Prop :=
  ∃ t, step s = .next t ∧ Legal t

/-! ### Vocabulary of the statements -/

/-- s with ARG0 and ARG1 as the host last wrote them (44_control.md R166). -/
def withOperands (s : State) (a0 a1 : Word) : State := (s.withArg0 a0).withArg1 a1

/-- s with another accumulation: INTEGRATOR and BUF replaced. -/
def withAudio (s : State) (acc : Word) (m : Cells 32) : State := (s.withIntegrator acc).withBuf m

/-- One injection of a sequence: which command, its clock time and its delta. -/
structure Injection where
  fast : Bool
  clockTime : Word
  delta : Word
  deriving DecidableEq, Repr

/-- The command of an injection. -/
def Injection.instr (j : Injection) : Instr := if j.fast then .addDeltaFast else .addDelta

/-- Run injections one after the other; none as soon as one of them does not succeed
(41_impulse_injector.md R107). -/
def injectAll : List Injection → State → Option State
  | [], s => some s
  | j :: js, s =>
    match exec j.instr (withOperands s j.clockTime j.delta) with
    | .next t => if t.code = 0#8 then injectAll js t else none
    | .fault _ => none
    | .refused _ => none

/-- The loop of a read on state s: acc i is the running sum before cell i and smp i the sample taken
there, for either SAMPLE_ORDER (43_sample_extractor.md R140, R142). -/
def ExtractLoop (s : State) (n : Nat) (acc smp : Nat → Int) : Prop :=
  acc 0 = s.integrator.toInt ∧
  ∀ i < n,
    match s.params.sampleOrder with
    | .integrateFirst =>
      smp i = clamp16 (asr (wrap32 (acc i + (bufRead s.buf i).toInt)) 15) ∧
      acc (i + 1) = wrap32 (wrap32 (acc i + (bufRead s.buf i).toInt) - smp i * 64)
    | .sampleFirst =>
      smp i = clamp16 (asr (acc i) 15) ∧
      acc (i + 1) = wrap32 (wrap32 (acc i + (bufRead s.buf i).toInt) - smp i * 64)

/-- BUF after SHIFT(n) on state s, cell by cell, for either SHIFT_WINDOW (43_sample_extractor.md
R147). -/
def ShiftedBy (s : State) (n : Nat) (b : Cells 32) : Prop :=
  ∀ j, bufRead b j =
    match s.params.shiftWindow with
    | .availPlusExtra =>
      if j < s.avail.toNat + 18 - n then bufRead s.buf (n + j)
      else if j < s.avail.toNat + 18 then 0#32 else bufRead s.buf j
    | .wholeBuffer =>
      if j < s.params.capacity + 18 - n then bufRead s.buf (n + j)
      else if j < s.params.capacity + 18 then 0#32 else bufRead s.buf j

/-- The number a finite binary32 pattern stands for (43_sample_extractor.md R155, R156); 0 for a
pattern of exponent 255, which stands for none. -/
def binary32Value (b : Word) : ℚ :=
  let e := (b.extractLsb' 23 8).toNat
  let f : ℚ := (b.extractLsb' 0 23).toNat
  let sign : ℚ := if b.msb then -1 else 1
  if e = 255 then 0
  else if e = 0 then sign * (f / 2 ^ 23) / 2 ^ 126
  else sign * (1 + f / 2 ^ 23) * 2 ^ e / 2 ^ 127

end Sys2Proof.Machine
end

