-- ==== Sys2Proof/Certificates/Slice0/Obligations.lean ====
section
/-! DEFINITION. The statements about the BlipBuf CORE, each from a numbered rule of spec/. Every
statement is about every CORE (every value of the parameters, log 1) unless it says otherwise. -/

open Sys2Proof Sys2Proof.Machine

/-! ### Encoding -/

/-- 30_encoding.md R72: the opcode map, word by word; a word of the map performs its command, every
other word is illegal, and while FATAL = 1 no word is a command. -/
def Obligations.OpcodeMapIsTheTable : Prop :=
  (∀ w : Word,
    (decode w = .ok .clear ↔ w.toNat = 0x1) ∧
    (decode w = .ok .setRates ↔ w.toNat = 0x2) ∧
    (decode w = .ok .addDelta ↔ w.toNat = 0x3) ∧
    (decode w = .ok .addDeltaFast ↔ w.toNat = 0x4) ∧
    (decode w = .ok .endFrame ↔ w.toNat = 0x5) ∧
    (decode w = .ok .clocksNeeded ↔ w.toNat = 0x6) ∧
    (decode w = .ok (.readSamples false) ↔ w.toNat = 0x7) ∧
    (decode w = .ok (.readSamples true) ↔ w.toNat = 0x17) ∧
    (decode w = .ok (.readFloatSamples false) ↔ w.toNat = 0x8) ∧
    (decode w = .ok (.readFloatSamples true) ↔ w.toNat = 0x18)) ∧
  (∀ (w : Word) (i : Instr) (s : State), decode w = .ok i → performCommand w s = exec i s) ∧
  (∀ (w : Word) (s : State), (∀ i, decode w ≠ .ok i) → s.fatal = false →
    performCommand w s = .next { s with code := 0x01#8 }) ∧
  (∀ (w : Word) (s : State), s.fatal = true →
    performCommand w s = .next { s with code := 0x07#8 })

/-- 30_encoding.md sections 1 and 2: over all 2^32 words and all instructions, a word decodes to an
instruction exactly when it is that instruction's encoding. -/
def Obligations.DecodeInvertsEncode : Prop :=
  ∀ (w : Word) (i : Instr), i.WellFormed → (decode w = .ok i ↔ encode i = w)

/-- 30_encoding.md section 3 and 20_memory.md section 3: an encoded instruction laid out in bytes,
lowest address first, decodes to itself and leaves the bytes that follow. -/
def Obligations.EncodedBytesDecode : Prop :=
  ∀ (i : Instr) (rest : List Byte), i.WellFormed →
    decodeBytes (bytesOfWord (encode i) ++ rest) = some (.ok i, rest)

/-- 30_encoding.md R78 (a rule the spec derives): four command words in full. -/
def Obligations.SpecWordsDecode : Prop :=
  decode 0x00000001#32 = .ok .clear ∧ decode 0x00000005#32 = .ok .endFrame ∧
  decode 0x00000017#32 = .ok (.readSamples true) ∧
  decode 0x00000008#32 = .ok (.readFloatSamples false)

/-- 30_encoding.md R74, 60_exceptions.md R172: OP = 0 or 9 .. 15, S = 1 on a command other than the
two reads, or RSV not zero, written while FATAL = 0: CODE = ERR_ILLEGAL and nothing else. -/
def Obligations.IllegalWordOnlySetsCode : Prop :=
  ∀ (w : Word) (s : State), s.fatal = false →
    (w.toNat % 16 = 0 ∨ 9 ≤ w.toNat % 16 ∨
      (w.toNat / 16 % 2 = 1 ∧ w.toNat % 16 ≠ 7 ∧ w.toNat % 16 ≠ 8) ∨ w.toNat / 32 ≠ 0) →
    performCommand w s = .next { s with code := 0x01#8 }

/-! ### The step -/

/-- 10_state.md R26: a host write of w to CMD performs the command w selects, and a read of CMD
returns 0 and starts nothing. -/
def Obligations.CommandWritePerformsOneCommand : Prop :=
  (∀ (s : State) (w : Word) (i : Instr) (rest : List HostAction),
    s.script = .store (s.params.regBase + 0x00) 32 w :: rest → decode w = .ok i →
    step s = exec i { s with script := rest }) ∧
  (∀ (s : State) (w : Word) (rest : List HostAction),
    s.script = .store (s.params.regBase + 0x00) 32 w :: rest → (∀ i, decode w ≠ .ok i) →
    step s = .next { s with script := rest, code := if s.fatal then 0x07#8 else 0x01#8 }) ∧
  (∀ (s : State) (rest : List HostAction),
    s.script = .load (s.params.regBase + 0x00) 32 :: rest →
    step s = .next { s with script := rest, reads := s.reads ++ [0#32] })

/-- log 3 (the model's own host script), 30_encoding.md section 1: a table word placed for the next
step runs the instruction the decoder reads from it. -/
def Obligations.PlacedWordRunsNext : Prop :=
  ∀ (s : State) (nbits w : Nat) (i : Instr), decodeTableWord nbits w = some i →
    step (s.withFetchWord nbits w) = exec i s

/-- 20_memory.md section 5, 60_exceptions.md section 4: with no host access pending the CORE does
nothing (log 5). -/
def Obligations.IdleStepHoldsTheState : Prop :=
  ∀ s : State, s.script = [] → step s = .next s

/-! ### CLEAR and SET_RATES -/

/-- 44_control.md R165: CLEAR. -/
def Obligations.ClearReturnsToInitialPhase : Prop :=
  encode .clear = 0x00000001#32 ∧
  (∀ s : State, s.fatal = true → exec .clear s = .next { s with code := 0x07#8 }) ∧
  ∀ s : State, s.fatal = false →
    ∃ (o : DWord) (b : Cells 32),
      exec .clear s = .next { s with code := 0#8, offset := o, avail := 0#32, integrator := 0#32,
                                     buf := b } ∧
      o.toNat = (if s.factor.toNat / 2 ≤ 2 ^ 51 then s.factor.toNat / 2 else 2 ^ 51) ∧
      ∀ j, bufRead b j = 0#32

/-- 40_rate_converter.md R90, R91: SET_RATES fails with ERR_RATES and keeps FACTOR when a rate is 0,
when the ratio is over 2^20, or when the factor does not fit 64 bits (sampleRate / clockRate >=
4096); otherwise FACTOR is the least f with f x clockRate >= 2^52 x sampleRate, and nothing else but
CODE changes. -/
def Obligations.SetRatesStoresTheCeiling : Prop :=
  encode .setRates = 0x00000002#32 ∧
  ∀ s : State, s.fatal = false →
    let cr := s.arg0.toNat
    let sr := s.arg1.toNat
    if cr = 0 ∨ sr = 0 ∨ 2 ^ 20 * sr < cr ∨ 4096 * cr ≤ sr then
      exec .setRates s = .next { s with code := 0x02#8 }
    else
      ∃ f : DWord,
        exec .setRates s = .next { s with code := 0#8, factor := f } ∧
        2 ^ 52 * sr ≤ f.toNat * cr ∧ ∀ q, 2 ^ 52 * sr ≤ q * cr → f.toNat ≤ q

/-- 40_rate_converter.md section on R90 (its derived sentence): a successful SET_RATES leaves
FACTOR >= 2^32, and an exact quotient is not rounded up. -/
def Obligations.SetRatesFactorRange : Prop :=
  ∀ s t : State, s.fatal = false → exec .setRates s = .next t → t.code = 0#8 →
    2 ^ 32 ≤ t.factor.toNat ∧
    (s.arg0.toNat ∣ 2 ^ 52 * s.arg1.toNat →
      t.factor.toNat * s.arg0.toNat = 2 ^ 52 * s.arg1.toNat)

/-! ### The injections -/

/-- 41_impulse_injector.md R102, R103 with the position of R100, in the widths the rules give: the 64
bit position wraps, target, phase and interp are bit fields of it, the shares d2 and d1 and the cells
are 32 bits wide. The 16 cells from target up gain the two kernel halves, no other cell changes, and
a target beyond CAPACITY + 2 is ERR_DELTA_RANGE with nothing written. FACTOR, OFFSET and AVAIL are read
as R100 says, against the wording of R108 (log 21). -/
def Obligations.AddDeltaAddsSixteenCells : Prop :=
  encode .addDelta = 0x00000003#32 ∧
  ∀ s : State, s.fatal = false →
    let fixed : Word := (s.arg0.setWidth 64 * s.factor + s.offset).extractLsb' 32 32
    let target := s.avail.toNat + (fixed.extractLsb' 20 12).toNat
    let phase := (fixed.extractLsb' 15 5).toNat
    let interp := fixed.extractLsb' 0 15
    let d2 : Word := (s.arg1 * interp.setWidth 32).sshiftRight 15
    let d1 : Word := s.arg1 - d2
    let K : Nat → Nat → Word := fun row tap =>
      ((s.params.kernel.get (Fin.ofNat 33 row)).get (Fin.ofNat 8 tap)).signExtend 32
    if s.params.capacity + 2 < target then exec .addDelta s = .next { s with code := 0x03#8 }
    else
      ∃ b : Cells 32,
        exec .addDelta s = .next { s with code := 0#8, buf := b } ∧
        (∀ k < 8, bufRead b (target + k)
          = bufRead s.buf (target + k) + (K phase k * d1 + K (phase + 1) k * d2)) ∧
        (∀ k < 8, bufRead b (target + 8 + k)
          = bufRead s.buf (target + 8 + k)
            + (K (32 - phase) (7 - k) * d1 + K (31 - phase) (7 - k) * d2)) ∧
        ∀ j, j < target ∨ target + 16 ≤ j → bufRead b j = bufRead s.buf j

/-- 41_impulse_injector.md R105, R106 with the position of R100: the two cells target + 7 and
target + 8 gain d x 32768 - d x w and d x w, no other cell changes, and the range check is that of
ADD_DELTA. FACTOR, OFFSET and AVAIL are read as R100 says, against the wording of R108 (log 21). -/
def Obligations.AddDeltaFastAddsTwoCells : Prop :=
  encode .addDeltaFast = 0x00000004#32 ∧
  ∀ s : State, s.fatal = false →
    let fixed : Word := (s.arg0.setWidth 64 * s.factor + s.offset).extractLsb' 32 32
    let target := s.avail.toNat + (fixed.extractLsb' 20 12).toNat
    let d2 : Word := s.arg1 * (fixed.extractLsb' 5 15).setWidth 32
    if s.params.capacity + 2 < target then exec .addDeltaFast s = .next { s with code := 0x03#8 }
    else
      ∃ b : Cells 32,
        exec .addDeltaFast s = .next { s with code := 0#8, buf := b } ∧
        bufRead b (target + 7) = bufRead s.buf (target + 7) + (s.arg1 * 32768#32 - d2) ∧
        bufRead b (target + 8) = bufRead s.buf (target + 8) + d2 ∧
        ∀ j, j ≠ target + 7 → j ≠ target + 8 → bufRead b j = bufRead s.buf j

/-- 41_impulse_injector.md R107: any order of a sequence of successful injections succeeds and leaves
the same BUF. -/
def Obligations.InjectionsCommute : Prop :=
  ∀ (js js' : List Injection) (s t : State), js.Perm js' → injectAll js s = some t →
    ∃ t', injectAll js' s = some t' ∧ ∀ i, bufRead t'.buf i = bufRead t.buf i

/-- 41_impulse_injector.md section 5 (R110, a rule the spec derives) and R111: on a legal CORE a
successful injection of either kind changes the sum of all cells of BUF by d x 32768 modulo 2^32,
whatever d. -/
def Obligations.InjectionTotalIsTheDelta : Prop :=
  ∀ (i : Instr) (s t : State), i = .addDelta ∨ i = .addDeltaFast → Legal s → s.fatal = false →
    exec i s = .next t → t.code = 0#8 →
    ((List.range (s.params.capacity + 18)).map
      (fun j => bufRead t.buf j - bufRead s.buf j)).sum = s.arg1 * 32768#32

/-- 41_impulse_injector.md section 5 (R110, a rule the spec derives): with |d| <= 32768 nothing wraps,
the added values of either kind are below 2^31 in magnitude and sum to exactly d x 32768. -/
def Obligations.TapsSumExactlyWithoutWrap : Prop :=
  ∀ (p : Config.Params) (fixed : Nat) (d : Int), p.KernelLegal → -32768 ≤ d → d ≤ 32768 →
    (preciseTaps p.kernel fixed d).sum = d * 32768 ∧ (fastTaps fixed d).sum = d * 32768 ∧
    ∀ c ∈ preciseTaps p.kernel fixed d ++ fastTaps fixed d, -2 ^ 31 < c ∧ c < 2 ^ 31

/-- 20_memory.md section 4 (R61, which the spec checks over R60's table): the default kernel keeps the
unit-step law, and row 32 is row 0 one tap later. -/
def Obligations.DefaultKernelKeepsTheUnitStep : Prop :=
  Config.Params.default.KernelLegal ∧
  kernelCoeff Config.defaultKernel 32 0 = 0 ∧
  ∀ k < 7, kernelCoeff Config.defaultKernel 32 (k + 1) = kernelCoeff Config.defaultKernel 0 k

/-! ### Frames -/

/-- 42_frame_advancer.md R125, R127: END_FRAME adds off >> 52 samples and keeps off mod 2^52, off
being a 64 bit value; a commit beyond CAPACITY sets FATAL and ERR_FRAME_OVERFLOW and changes nothing
else. -/
def Obligations.EndFrameCommitsSamples : Prop :=
  encode .endFrame = 0x00000005#32 ∧
  ∀ s : State, s.fatal = false →
    let off : DWord := s.arg0.setWidth 64 * s.factor + s.offset
    let n : DWord := off >>> 52
    if s.params.capacity < s.avail.toNat + n.toNat then
      exec .endFrame s = .next { s with code := 0x06#8, fatal := true }
    else
      exec .endFrame s = .next { s with code := 0#8, avail := s.avail + n.setWidth 32,
                                        offset := off &&& 0xFFFFFFFFFFFFF#64 }

/-- 42_frame_advancer.md section 1 (R126, a rule the spec derives): the carry is exact. Injecting at
clock T + t and then ending the frame at T leaves the BUF, AVAIL and OFFSET that ending the frame at
T and then injecting at t leaves. -/
def Obligations.FrameCarryIsExact : Prop :=
  ∀ (j : Instr) (s a b : State) (T t d x : Word), j = .addDelta ∨ j = .addDeltaFast → Legal s →
    T.toNat + t.toNat < 2 ^ 32 →
    (T.toNat + t.toNat) * s.factor.toNat + s.offset.toNat < 2 ^ 64 →
    exec j (withOperands s (T + t) d) = .next a → a.code = 0#8 →
    exec .endFrame (withOperands a T x) = .next b → b.code = 0#8 →
    ∃ u v : State,
      exec .endFrame (withOperands s T x) = .next u ∧ u.code = 0#8 ∧
      exec j (withOperands u t d) = .next v ∧ v.code = 0#8 ∧
      v.buf = b.buf ∧ v.avail = b.avail ∧ v.offset = b.offset

/-- 42_frame_advancer.md section 1 (R130, a rule the spec derives): END_FRAME 0 on a legal CORE
changes only CODE. -/
def Obligations.EmptyFrameAddsNothing : Prop :=
  ∀ s : State, Legal s → s.fatal = false → s.arg0 = 0#32 →
    exec .endFrame s = .next { s with code := 0#8 }

/-- 42_frame_advancer.md section 1 (R129, a rule the spec derives): a long frame commits its samples
modulo 4096, without an error. -/
def Obligations.FrameCountWrapsAt4096 : Prop :=
  ∀ s t : State, s.fatal = false → exec .endFrame s = .next t → t.code = 0#8 →
    t.avail.toNat = (s.avail.toNat
      + (s.arg0.toNat * s.factor.toNat + s.offset.toNat) / 2 ^ 52 % 4096) % 2 ^ 32 ∧
    t.offset.toNat = (s.arg0.toNat * s.factor.toNat + s.offset.toNat) % 2 ^ 52

/-- 42_frame_advancer.md R131: CLOCKS_NEEDED, on a CORE whose registers are legal: ERR_CLOCKS_RANGE
with nothing else changed when AVAIL + N is over CAPACITY; else RESULT is 0 when N x 2^52 is below
OFFSET, and otherwise the least R with R x FACTOR >= N x 2^52 - OFFSET, exact in 64 bits. -/
def Obligations.ClocksNeededIsTheCeiling : Prop :=
  encode .clocksNeeded = 0x00000006#32 ∧
  ∀ s : State, s.params.Legal → RegistersLegal s → s.fatal = false →
    let N := s.arg0.toNat
    if s.params.capacity < s.avail.toNat + N then
      exec .clocksNeeded s = .next { s with code := 0x04#8 }
    else
      ∃ r : DWord,
        exec .clocksNeeded s = .next { s with code := 0#8, result := r } ∧
        if 2 ^ 52 * N < s.offset.toNat then r = 0#64
        else 2 ^ 52 * N - s.offset.toNat ≤ r.toNat * s.factor.toNat ∧
          ∀ q, 2 ^ 52 * N - s.offset.toNat ≤ q * s.factor.toNat → r.toNat ≤ q

/-- 42_frame_advancer.md section 2 (R132, a rule the spec derives): the n that R125 computes, before the
check of R127, is at least N for RESULT clocks and below N for RESULT - 1 clocks, where the sum does not
wrap. What END_FRAME then does, overflow included, is `ClocksNeededSizesTheFrame`. -/
def Obligations.ClocksNeededIsMinimal : Prop :=
  ∀ s t : State, Legal s → s.fatal = false → exec .clocksNeeded s = .next t → t.code = 0#8 →
    t.result.toNat * s.factor.toNat + s.offset.toNat < 2 ^ 64 →
    s.arg0.toNat ≤ frameSamples s t.result.toNat ∧
    (1 ≤ t.result.toNat → frameSamples s (t.result.toNat - 1) < s.arg0.toNat)

/-- 42_frame_advancer.md section 2 (R132, a rule the spec derives) with the overflow that R132 does not
mention and R127 adds (log 22): after CLOCKS_NEEDED N, where the sum does not wrap, END_FRAME of RESULT
clocks either ends in ERR_FRAME_OVERFLOW, where R125's n does not fit, with AVAIL unchanged, or AVAIL
grows by at least N; END_FRAME of RESULT - 1 clocks never overflows and AVAIL grows by fewer than N. -/
def Obligations.ClocksNeededSizesTheFrame : Prop :=
  ∀ (s t : State) (T x : Word), Legal s → s.fatal = false → exec .clocksNeeded s = .next t →
    t.code = 0#8 → t.result.toNat * s.factor.toNat + s.offset.toNat < 2 ^ 64 →
    (T.toNat = t.result.toNat →
      ∃ u, exec .endFrame (withOperands t T x) = .next u ∧
        if s.params.capacity < s.avail.toNat + frameSamples s T.toNat then
          u.code = 0x06#8 ∧ u.fatal = true ∧ u.avail = s.avail
        else u.code = 0#8 ∧ s.avail.toNat + s.arg0.toNat ≤ u.avail.toNat) ∧
    (T.toNat + 1 = t.result.toNat →
      ∃ u, exec .endFrame (withOperands t T x) = .next u ∧ u.code = 0#8 ∧
        s.avail.toNat ≤ u.avail.toNat ∧ u.avail.toNat < s.avail.toNat + s.arg0.toNat)

/-- 42_frame_advancer.md section 2 (R133, a rule the spec derives): CLOCKS_NEEDED 0 returns 0. -/
def Obligations.ClocksNeededOfZeroIsZero : Prop :=
  ∀ s : State, Legal s → s.fatal = false → s.arg0 = 0#32 →
    exec .clocksNeeded s = .next { s with code := 0#8, result := 0#64 }

/-! ### Reads -/

/-- 43_sample_extractor.md R140, R153: READ_SAMPLES, in both sample orders and both windows, mono and
stereo. With n = min(count, AVAIL): n = 0 only sets RESULT = 0; a run past OUT16_LEN is ERR_OUT_RANGE
with nothing written; otherwise the n samples of the loop stand in OUT16 from base, `step` apart, and
every other element, and everything the rule does not write, is as before. -/
def Obligations.ReadSamplesExtracts : Prop :=
  encode (.readSamples false) = 0x00000007#32 ∧ encode (.readSamples true) = 0x00000017#32 ∧
  ∀ (s : State) (stereo : Bool), s.fatal = false → s.avail.toNat ≤ s.params.capacity →
    let n := min s.arg0.toNat s.avail.toNat
    let base := s.arg1.toNat
    let step := if stereo then 2 else 1
    if n = 0 then exec (.readSamples stereo) s = .next { s with code := 0#8, result := 0#64 }
    else if s.params.out16Len ≤ base + (n - 1) * step then
      exec (.readSamples stereo) s = .next { s with code := 0x05#8 }
    else
      ∃ (acc smp : Nat → Int) (sum : Word) (b : Cells 32) (o : Cells 16),
        exec (.readSamples stereo) s
          = .next { s with code := 0#8, integrator := sum, buf := b, out16 := o,
                           avail := s.avail - BitVec.ofNat 32 n, result := BitVec.ofNat 64 n } ∧
        ExtractLoop s n acc smp ∧ sum.toInt = acc n ∧ ShiftedBy s n b ∧
        (∀ i < n, ∃ v, cellFind o (base + i * step) = some v ∧ v.toInt = smp i) ∧
        ∀ j, (∀ i < n, j ≠ base + i * step) → cellFind o j = cellFind s.out16 j

/-- 43_sample_extractor.md R140, R155: READ_FLOAT_SAMPLES: the same against OUTF_LEN and OUTF, each
element the binary32 number smp / 32768, and +0.0 for smp = 0. -/
def Obligations.ReadFloatSamplesExtracts : Prop :=
  encode (.readFloatSamples false) = 0x00000008#32 ∧
  encode (.readFloatSamples true) = 0x00000018#32 ∧
  ∀ (s : State) (stereo : Bool), s.fatal = false → s.avail.toNat ≤ s.params.capacity →
    let n := min s.arg0.toNat s.avail.toNat
    let base := s.arg1.toNat
    let step := if stereo then 2 else 1
    if n = 0 then exec (.readFloatSamples stereo) s = .next { s with code := 0#8, result := 0#64 }
    else if s.params.outFLen ≤ base + (n - 1) * step then
      exec (.readFloatSamples stereo) s = .next { s with code := 0x05#8 }
    else
      ∃ (acc smp : Nat → Int) (sum : Word) (b : Cells 32) (o : Cells 32),
        exec (.readFloatSamples stereo) s
          = .next { s with code := 0#8, integrator := sum, buf := b, outF := o,
                           avail := s.avail - BitVec.ofNat 32 n, result := BitVec.ofNat 64 n } ∧
        ExtractLoop s n acc smp ∧ sum.toInt = acc n ∧ ShiftedBy s n b ∧
        (∀ i < n, ∃ v, cellFind o (base + i * step) = some v ∧
          binary32Value v = smp i / 32768 ∧ (smp i = 0 → v = 0#32)) ∧
        ∀ j, (∀ i < n, j ≠ base + i * step) → cellFind o j = cellFind s.outF j

/-- 43_sample_extractor.md section 2 (R155's twin clause): on the same state READ_SAMPLES and
READ_FLOAT_SAMPLES leave the same INTEGRATOR, BUF, AVAIL and RESULT when both succeed. -/
def Obligations.BothReadsEvolveAlike : Prop :=
  ∀ (s t u : State) (stereo stereo' : Bool), exec (.readSamples stereo) s = .next t →
    exec (.readFloatSamples stereo') s = .next u → t.code = 0#8 → u.code = 0#8 →
    { t with out16 := [], outF := [] } = { u with out16 := [], outF := [] }

/-- 43_sample_extractor.md section 2 (R156, a rule the spec derives): the pattern written for every
clipped sample stands for exactly s / 32768. -/
def Obligations.FloatScalingIsExact : Prop :=
  ∀ s : Int, -32768 ≤ s → s ≤ 32767 → binary32Value (float32 s) = (s : ℚ) / 32768

/-- 43_sample_extractor.md section 1, 92_eei_decisions.md D24: where no cell from AVAIL + 18 on holds
anything, the two values of SHIFT_WINDOW give the same BUF after a read. -/
def Obligations.ShiftWindowsAgreeOnClosedFrames : Prop :=
  ∀ (s t u : State) (stereo : Bool), s.avail.toNat ≤ s.params.capacity →
    (∀ j, s.avail.toNat + 18 ≤ j → bufRead s.buf j = 0#32) →
    exec (.readSamples stereo)
      { s with params := { s.params with shiftWindow := .availPlusExtra } } = .next t →
    exec (.readSamples stereo)
      { s with params := { s.params with shiftWindow := .wholeBuffer } } = .next u →
    ∀ j, bufRead t.buf j = bufRead u.buf j

/-- 43_sample_extractor.md section 1 (R150, a rule the spec derives): over an empty cell a sum that is
not negative falls toward 0 and stays on its side, and falls strictly while its integer part is not
0. -/
def Obligations.HighPassSettlesTowardZero : Prop :=
  ∀ (order : Config.SampleOrder) (acc : Word), 0 ≤ acc.toInt →
    0 ≤ (extractCell order acc 0#32).2.toInt ∧
    (extractCell order acc 0#32).2.toInt ≤ acc.toInt ∧
    (2 ^ 15 ≤ acc.toInt → (extractCell order acc 0#32).2.toInt < acc.toInt)

/-- 43_sample_extractor.md section 2 (R157, a rule the spec derives): after CLEAR any read succeeds,
returns 0 samples and leaves INTEGRATOR = 0. -/
def Obligations.ClearThenReadReturnsNothing : Prop :=
  ∀ (s t : State) (a0 a1 : Word) (stereo : Bool) (i : Instr),
    i = .readSamples stereo ∨ i = .readFloatSamples stereo →
    s.fatal = false → exec .clear s = .next t →
    ∃ u, exec i (withOperands t a0 a1) = .next u ∧ u.code = 0#8 ∧ u.result = 0#64 ∧
      u.integrator = 0#32

/-! ### Outcomes, frames and isolation, over all commands -/

/-- 60_exceptions.md R171: a command or word that ends in an error writes STATUS.CODE and nothing
else, but that ERR_FRAME_OVERFLOW sets FATAL. -/
def Obligations.ErrorChangesOnlyStatus : Prop :=
  ∀ (w : Word) (s t : State), performCommand w s = .next t → t.code ≠ 0#8 →
    t = { s with code := t.code, fatal := s.fatal || decide (t.code = 0x06#8) }

/-- 60_exceptions.md section 1: no command stops the machine, and each command ends only in the codes
the table of R170 gives it. -/
def Obligations.EveryCommandEndsInItsCodes : Prop :=
  ∀ (i : Instr) (s : State), s.fatal = false →
    ∃ t, exec i s = .next t ∧
      match i with
      | .clear => t.code = 0#8
      | .setRates => t.code = 0#8 ∨ t.code = 0x02#8
      | .addDelta => t.code = 0#8 ∨ t.code = 0x03#8
      | .addDeltaFast => t.code = 0#8 ∨ t.code = 0x03#8
      | .endFrame => t.code = 0#8 ∨ t.code = 0x06#8
      | .clocksNeeded => t.code = 0#8 ∨ t.code = 0x04#8
      | .readSamples _ => t.code = 0#8 ∨ t.code = 0x05#8
      | .readFloatSamples _ => t.code = 0#8 ∨ t.code = 0x05#8

/-- 60_exceptions.md R176: while FATAL = 1 every CMD write only sets CODE = ERR_HALTED; register reads
and ARG writes still work; only reset clears FATAL, and it does. -/
def Obligations.HaltedUntilReset : Prop :=
  ∀ s : State, s.fatal = true →
    (∀ w, performCommand w s = .next { s with code := 0x07#8 }) ∧
    (∀ v rest, s.script = .store (s.params.regBase + 0x04) 32 v :: rest →
      step s = .next { s with script := rest, arg0 := v }) ∧
    (∀ v rest, s.script = .store (s.params.regBase + 0x08) 32 v :: rest →
      step s = .next { s with script := rest, arg1 := v }) ∧
    (∀ off rest, s.script = .load (s.params.regBase + off) 32 :: rest → off % 4 = 0 →
      step s = .next { s with script := rest, reads := s.reads ++ [readReg s (regAt off)] }) ∧
    (∀ t, step s = .next t → t.fatal = false → s.script.head? = some .assertReset) ∧
    (∀ rest, s.script = .assertReset :: rest → ∃ t, step s = .next t ∧ t.fatal = false)

/-- 10_state.md section 2, the column "written by" of R21 and R22: which commands can change which
state; no command writes ARG0, ARG1 or the parameters (the kernel ROM among them). -/
def Obligations.OnlyTheListedCommandsWrite : Prop :=
  ∀ (i : Instr) (s t : State), exec i s = .next t →
    (t.params = s.params ∧ t.arg0 = s.arg0 ∧ t.arg1 = s.arg1 ∧ t.script = s.script ∧
      t.reads = s.reads) ∧
    (t.factor ≠ s.factor → i = .setRates) ∧
    (t.offset ≠ s.offset → i = .endFrame ∨ i = .clear) ∧
    (t.fatal ≠ s.fatal → i = .endFrame ∧ t.fatal = true) ∧
    (t.result ≠ s.result →
      i = .clocksNeeded ∨ ∃ st, i = .readSamples st ∨ i = .readFloatSamples st) ∧
    (t.avail ≠ s.avail →
      i = .endFrame ∨ i = .clear ∨ ∃ st, i = .readSamples st ∨ i = .readFloatSamples st) ∧
    (t.integrator ≠ s.integrator →
      i = .clear ∨ ∃ st, i = .readSamples st ∨ i = .readFloatSamples st) ∧
    (t.buf ≠ s.buf →
      i = .addDelta ∨ i = .addDeltaFast ∨ i = .clear ∨
        ∃ st, i = .readSamples st ∨ i = .readFloatSamples st) ∧
    (t.out16 ≠ s.out16 → ∃ st, i = .readSamples st) ∧
    (t.outF ≠ s.outF → ∃ st, i = .readFloatSamples st)

/-- 10_state.md section 4 (R36, a rule the spec derives): INTEGRATOR and BUF are observed through the
output samples of the reads alone. Every other command on a state with another INTEGRATOR and BUF
answers the same state, but for INTEGRATOR and BUF. -/
def Obligations.AudioStateIsHiddenFromOtherCommands : Prop :=
  ∀ (i : Instr) (s t : State) (acc : Word) (m : Cells 32),
    (∀ st, i ≠ .readSamples st ∧ i ≠ .readFloatSamples st) → exec i s = .next t →
    ∃ acc' m', exec i (withAudio s acc m) = .next (withAudio t acc' m')

/-- 10_state.md section 4 (R36, a rule the spec derives): FACTOR, OFFSET, INTEGRATOR and BUF cannot be
read. A host access that is not a store to CMD answers alike on two states that differ in those
alone, and leaves them as they were. -/
def Obligations.HiddenStateIsNotReadable : Prop :=
  ∀ (a : HostAction) (s t : State) (f o : DWord) (acc : Word) (m : Cells 32),
    (∀ addr v, a = .store addr 32 v → addr ≠ s.params.regBase) → a ≠ .assertReset →
    performAction a s = .next t →
    performAction a { s with factor := f, offset := o, integrator := acc, buf := m }
        = .next { t with factor := f, offset := o, integrator := acc, buf := m } ∧
      t.factor = s.factor ∧ t.offset = s.offset ∧ t.integrator = s.integrator ∧ t.buf = s.buf

/-! ### Host accesses -/

/-- 44_control.md R167: what each register read returns, FATAL 0 or 1; a read changes no state of the
CORE (the model's own `reads` records the value, log 4). -/
def Obligations.RegisterReadsReturn : Prop :=
  ∀ (s : State) (off : Nat) (rest : List HostAction),
    s.script = .load (s.params.regBase + off) 32 :: rest → off % 4 = 0 →
    ∃ v : Word, step s = .next { s with script := rest, reads := s.reads ++ [v] } ∧
      v.toNat =
        if off = 0x04 then s.arg0.toNat
        else if off = 0x08 then s.arg1.toNat
        else if off = 0x0C then s.fatal.toNat * 2 ^ 8 + s.code.toNat
        else if off = 0x10 then s.result.toNat % 2 ^ 32
        else if off = 0x14 then s.result.toNat / 2 ^ 32
        else if off = 0x18 then s.avail.toNat
        else 0

/-- 44_control.md R166: a register write to ARG0 or ARG1 sets it and nothing else, one to CMD runs one
command, one to STATUS, RESULT, AVAIL or a reserved offset is ignored, FATAL 0 or 1. -/
def Obligations.RegisterWritesSet : Prop :=
  ∀ (s : State) (off : Nat) (v : Word) (rest : List HostAction),
    s.script = .store (s.params.regBase + off) 32 v :: rest → off % 4 = 0 →
    step s =
      if off = 0x00 then performCommand v { s with script := rest }
      else if off = 0x04 then .next { s with script := rest, arg0 := v }
      else if off = 0x08 then .next { s with script := rest, arg1 := v }
      else .next { s with script := rest }

/-- 20_memory.md R51: an access of another width, or at an offset that is not a multiple of 4, has no
effect on the CORE, and a read of that kind returns 0. -/
def Obligations.NarrowOrMisalignedAccessIsInert : Prop :=
  ∀ (s : State) (off width : Nat) (v : Word) (rest : List HostAction),
    width ≠ 32 ∨ off % 4 ≠ 0 →
    (s.script = .store (s.params.regBase + off) width v :: rest →
      step s = .next { s with script := rest }) ∧
    (s.script = .load (s.params.regBase + off) width :: rest →
      step s = .next { s with script := rest, reads := s.reads ++ [0#32] })

/-- 20_memory.md section 3 (R55): what the host sees as bytes is little-endian, and RESULT_LO sits at
the lower offset. -/
def Obligations.HostBytesAreLittleEndian : Prop :=
  ∀ (s : State) (i : Nat),
    out16Byte s (2 * i + 1) ++ out16Byte s (2 * i) = out16Read s.out16 i ∧
    wordOfBytes (outFByte s (4 * i)) (outFByte s (4 * i + 1)) (outFByte s (4 * i + 2))
      (outFByte s (4 * i + 3)) = outFRead s.outF i ∧
    wordOfBytes (regByte s (4 * i)) (regByte s (4 * i + 1)) (regByte s (4 * i + 2))
      (regByte s (4 * i + 3)) = readReg s (regAt (4 * i)) ∧
    readReg s (regAt 0x14) ++ readReg s (regAt 0x10) = s.result

/-- 20_memory.md section 3 (R56), section 5 (R62) and log 7: a host write of an output element is what
the host's next access, a read of it, returns; and a host read of an element that holds a value, written
by a READ command or by the host, returns that value and changes nothing but `reads` (log 4). -/
def Obligations.OutputElementReadsBack : Prop :=
  ∀ (s : State) (i : Nat) (v : Half) (u : Word) (rest : List HostAction),
    (i < s.params.out16Len → s.script = .writeOut16 i v :: .readOut16 i :: rest →
      ∃ t, Host.Core.run core 2 s = .next t ∧ t.reads = s.reads ++ [v.setWidth 32] ∧
        ∀ j, j ≠ i → cellFind t.out16 j = cellFind s.out16 j) ∧
    (i < s.params.outFLen → s.script = .writeOutF i u :: .readOutF i :: rest →
      ∃ t, Host.Core.run core 2 s = .next t ∧ t.reads = s.reads ++ [u] ∧
        ∀ j, j ≠ i → cellFind t.outF j = cellFind s.outF j) ∧
    (i < s.params.out16Len → cellFind s.out16 i = some v → s.script = .readOut16 i :: rest →
      step s = .next { s with script := rest, reads := s.reads ++ [v.setWidth 32] }) ∧
    (i < s.params.outFLen → cellFind s.outF i = some u → s.script = .readOutF i :: rest →
      step s = .next { s with script := rest, reads := s.reads ++ [u] })

/-- 30_encoding.md section 4 (R76) and 20_memory.md section 5: the three stores of a command statement
run its command on its operands. -/
def Obligations.StatementRunsItsCommand : Prop :=
  ∀ (s : State) (a0 a1 : Word) (i : Instr) (rest : List HostAction),
    s.script = commandStores s.params a0 a1 i ++ rest →
    Host.Core.run core 3 s = exec i { s with arg0 := a0, arg1 := a1, script := rest }

/-- 30_encoding.md section 4 (R77) and log 15: CHECK reads STATUS and ends the script when CODE is not
0. -/
def Obligations.CheckStopsOnError : Prop :=
  ∀ (s : State) (rest : List HostAction), s.script = .check :: rest →
    step s = .next { s with script := if s.code = 0#8 then rest else [],
                            reads := s.reads ++ [readReg s .status] }

/-! ### Reset, construction, and the invariant of every step -/

/-- 70_reset_and_hazards.md R190: what reset leaves, and that OUT16, OUTF, the kernel and the other
parameters are not touched. -/
def Obligations.ResetSetsTheStatedValues : Prop :=
  ∀ (s : State) (rest : List HostAction), s.script = .assertReset :: rest →
    ∃ t, step s = .next t ∧ t.factor.toNat = 2 ^ 32 ∧ t.offset.toNat = 2 ^ 31 ∧ t.avail = 0#32 ∧
      t.integrator = 0#32 ∧ (∀ j, bufRead t.buf j = 0#32) ∧ t.arg0 = 0#32 ∧ t.arg1 = 0#32 ∧
      t.result = 0#64 ∧ t.code = 0#8 ∧ t.fatal = false ∧ t.out16 = s.out16 ∧ t.outF = s.outF ∧
      t.params = s.params

/-- 10_state.md section 2 and 00_scope.md section 4: the state after reset is legal for every CORE
that exists, the one State.reset names (log 2) among them. -/
def Obligations.ResetStateIsLegal : Prop :=
  (∀ p : Config.Params, p.Legal → Legal (State.resetWith p)) ∧ Legal State.reset

/-- 10_state.md section 4 (R37, a rule the spec derives) and R27, for every access of the host: a step
from a legal state that answers a next state answers a legal one. Legal says: AVAIL <= CAPACITY,
OFFSET < 2^52, FACTOR >= 2^32, CODE of R170, FATAL only with code 6 or 7, and BUF, OUT16 and OUTF in
canonical form within their sizes. -/
def Obligations.StepKeepsLegal : Prop :=
  ∀ s t : State, Legal s → step s = .next t → Legal t

/-- 60_exceptions.md section 2 and logs 7 and 8: no step is refused, a step faults only on a host
access to something the CORE does not have, and it always faults there. -/
def Obligations.OnlyAbsentAccessesFault : Prop :=
  (∀ (s : State) (r : Refusal), step s ≠ .refused r) ∧
  (∀ (a : HostAction) (rest : List HostAction) (s : State), s.script = a :: rest →
    ((∃ f, step s = .fault f) ↔ ¬ AccessExists s.params a))

/-- 10_state.md section 4 and 60_exceptions.md section 2: from every legal state, every access of the
host to something the CORE has leads to a legal next state: the CORE never gets stuck. -/
def Obligations.LegalMachineIsSafe : Prop :=
  ∀ s : State, Legal s → (∀ a ∈ s.script.head?, AccessExists s.params a) → SafeStep s

/-- 30_encoding.md section 4 (R77), 70_reset_and_hazards.md section 1: a CORE is constructed exactly
for a legal CAPACITY (the other parameters being legal), in its reset state. -/
def Obligations.ConstructionNeedsLegalCapacity : Prop :=
  ∀ p : Config.Params, p.OutLengthsLegal → p.RegBaseLegal → p.KernelLegal →
    (1 ≤ p.capacity → p.capacity ≤ 2147483629 → construct p = some (State.resetWith p)) ∧
    (p.capacity = 0 → construct p = none) ∧ (2147483630 ≤ p.capacity → construct p = none)

/-- 70_reset_and_hazards.md section 1 (R192, which the spec derives in part): after the second form of
construction OFFSET is 2^31, not half of the new FACTOR, and CHECK has read the code of SET_RATES. -/
def Obligations.ConstructWithRatesKeepsResetOffset : Prop :=
  ∀ (p : Config.Params) (cr sr : Word) (s : State), constructWithRates p cr sr = some s →
    ∃ t, Host.Core.run core 4 s = .next t ∧ t.offset.toNat = 2 ^ 31 ∧ t.fatal = false ∧
      (t.code = 0#8 ∨ t.code = 0x02#8) ∧ t.reads = [t.code.setWidth 32]
end

