-- ==== Sys2Proof/Laws/Memory.lean ====
section
/-! SUPPORT. The laws of memory: what each operation over a list of cells leaves at every index, and
that every one keeps the canonical form. -/

namespace Sys2Proof.Machine

/-! ### Finding, listing and erasing -/

@[simp] theorem cellFind_nil {w : Nat} (i : Nat) : cellFind ([] : Cells w) i = none := rfl

theorem cellFind_cellPut {w : Nat} (m : Cells w) (i j : Nat) (v : BitVec w) :
    cellFind (cellPut m i v) j = if j = i then some v else cellFind m j := by
  induction m with
  | nil => simp [cellPut, cellFind, eq_comm]
  | cons e m ih =>
    obtain ⟨k, x⟩ := e
    rw [cellPut]
    by_cases hlt : i < k
    · by_cases hj : j = i
      · simp [hlt, hj, cellFind]
      · simp [hlt, hj, cellFind, Ne.symm hj]
    · by_cases heq : k = i
      · by_cases hj : j = i
        · simp [heq, hj, cellFind]
        · simp [heq, hj, cellFind, Ne.symm hj]
      · simp only [hlt, heq, if_false, cellFind, ih]
        by_cases hk : k = j
        · simp [hk, hk ▸ heq]
        · simp [hk]

@[simp] theorem cellFind_cellPut_self {w : Nat} (m : Cells w) (i : Nat) (v : BitVec w) :
    cellFind (cellPut m i v) i = some v := by simp [cellFind_cellPut]

theorem cellFind_cellErase {w : Nat} (m : Cells w) (i j : Nat) :
    cellFind (cellErase m i) j = if j = i then none else cellFind m j := by
  induction m with
  | nil => simp [cellErase, cellFind]
  | cons e m ih =>
    obtain ⟨k, x⟩ := e
    by_cases hk : k = i <;> by_cases hj : j = i <;> simp_all [cellErase, cellFind]
    exact fun h => absurd h.symm hj

/-- A listed entry of rising cells is what finding its index answers. -/
theorem cellFind_of_mem {w : Nat} {m : Cells w} (hm : Ascending m) {e : Nat × BitVec w}
    (he : e ∈ m) : cellFind m e.1 = some e.2 := by
  induction m with
  | nil => cases he
  | cons a m ih =>
    obtain ⟨k, x⟩ := a
    have h := List.pairwise_cons.mp hm
    rcases List.mem_cons.mp he with rfl | he'
    · simp [cellFind]
    · have hlt : k < e.1 := h.1 e he'
      simp [cellFind, Nat.ne_of_lt hlt, ih h.2 he']

/-- What is found is listed. -/
theorem mem_of_cellFind {w : Nat} {m : Cells w} {i : Nat} {v : BitVec w}
    (h : cellFind m i = some v) : (i, v) ∈ m := by
  induction m with
  | nil => cases h
  | cons a m ih =>
    obtain ⟨k, x⟩ := a
    by_cases hk : k = i
    · simp only [cellFind, hk, if_true, Option.some.injEq] at h
      simp [hk, h]
    · simp only [cellFind, hk, if_false] at h
      exact List.mem_cons_of_mem _ (ih h)

theorem mem_cellPut {w : Nat} {m : Cells w} {i : Nat} {v : BitVec w} {e : Nat × BitVec w}
    (he : e ∈ cellPut m i v) : e = (i, v) ∨ e ∈ m := by
  induction m with
  | nil => simpa [cellPut] using he
  | cons a m ih =>
    obtain ⟨k, x⟩ := a
    simp only [cellPut] at he
    split_ifs at he with hlt heq
    · simpa using he
    · rcases List.mem_cons.mp he with h | h
      · exact .inl h
      · exact .inr (List.mem_cons_of_mem _ h)
    · rcases List.mem_cons.mp he with h | h
      · exact .inr (h ▸ List.mem_cons_self)
      · rcases ih h with h' | h'
        · exact .inl h'
        · exact .inr (List.mem_cons_of_mem _ h')

theorem mem_cellErase {w : Nat} {m : Cells w} {i : Nat} {e : Nat × BitVec w}
    (he : e ∈ cellErase m i) : e ∈ m := by
  induction m with
  | nil => cases he
  | cons a m ih =>
    obtain ⟨k, x⟩ := a
    simp only [cellErase] at he
    split_ifs at he with hk
    · exact List.mem_cons_of_mem _ (ih he)
    · rcases List.mem_cons.mp he with h | h
      · exact h ▸ List.mem_cons_self
      · exact List.mem_cons_of_mem _ (ih h)

/-! ### The canonical form is kept -/

theorem ascending_cellPut {w : Nat} {m : Cells w} (hm : Ascending m) (i : Nat) (v : BitVec w) :
    Ascending (cellPut m i v) := by
  induction m with
  | nil => simp [cellPut, Ascending]
  | cons a m ih =>
    obtain ⟨k, x⟩ := a
    have h := List.pairwise_cons.mp hm
    simp only [cellPut]
    split_ifs with hlt heq
    · refine List.pairwise_cons.mpr ⟨fun e he => ?_, hm⟩
      rcases List.mem_cons.mp he with rfl | he
      · exact hlt
      · exact Nat.lt_trans hlt (h.1 e he)
    · exact List.pairwise_cons.mpr ⟨fun e he => heq ▸ h.1 e he, h.2⟩
    · refine List.pairwise_cons.mpr ⟨fun e he => ?_, ih h.2⟩
      rcases mem_cellPut he with rfl | he
      · show k < i; omega
      · exact h.1 e he

theorem ascending_cellErase {w : Nat} {m : Cells w} (hm : Ascending m) (i : Nat) :
    Ascending (cellErase m i) := by
  induction m with
  | nil => exact List.Pairwise.nil
  | cons a m ih =>
    obtain ⟨k, x⟩ := a
    have h := List.pairwise_cons.mp hm
    simp only [cellErase]
    split_ifs with hk
    · exact ih h.2
    · exact List.pairwise_cons.mpr ⟨fun e he => h.1 e (mem_cellErase he), ih h.2⟩

theorem outWf_cellPut {w len : Nat} {m : Cells w} (hm : OutWf len m) {i : Nat} (hi : i < len)
    (v : BitVec w) : OutWf len (cellPut m i v) :=
  ⟨ascending_cellPut hm.1 i v, fun e he => by
    rcases mem_cellPut he with rfl | he
    · exact hi
    · exact hm.2 e he⟩

theorem mem_index_ne_of_cellErase {w : Nat} {m : Cells w} {i : Nat} {e : Nat × BitVec w}
    (he : e ∈ cellErase m i) : e.1 ≠ i := by
  induction m with
  | nil => cases he
  | cons a m ih =>
    obtain ⟨k, x⟩ := a
    simp only [cellErase] at he
    split_ifs at he with hk
    · exact ih he
    · rcases List.mem_cons.mp he with rfl | h
      · exact hk
      · exact ih h

theorem bufWf_bufWrite {p : Config.Params} {m : Cells 32} (hm : BufWf p m) {i : Nat}
    (hi : i < bufLen p) (v : Word) : BufWf p (bufWrite m i v) := by
  unfold bufWrite
  split_ifs with hv
  · exact ⟨ascending_cellErase hm.1 i, fun e he => hm.2 e (mem_cellErase he)⟩
  · refine ⟨ascending_cellPut hm.1 i v, fun e he => ?_⟩
    rcases mem_cellPut he with rfl | he
    · exact ⟨hv, hi⟩
    · exact hm.2 e he

theorem bufWf_addCells {p : Config.Params} (cs : List Int) :
    ∀ {m : Cells 32} {base : Nat}, BufWf p m → base + cs.length ≤ bufLen p →
      BufWf p (addCells m base cs) := by
  induction cs with
  | nil => intro m base hm _; exact hm
  | cons c cs ih =>
    intro m base hm hlen
    simp only [List.length_cons] at hlen
    exact ih (bufWf_bufWrite hm (by omega) _) (by omega)

theorem outWf_writeRun {w len : Nat} (step : Nat) (vs : List (BitVec w)) :
    ∀ {m : Cells w} {i : Nat}, OutWf len m → (vs ≠ [] → i + (vs.length - 1) * step < len) →
      OutWf len (writeRun m i step vs) := by
  induction vs with
  | nil => intro m i hm _; exact hm
  | cons v vs ih =>
    intro m i hm hlen
    have h := hlen (by simp)
    simp only [List.length_cons, Nat.add_sub_cancel] at h
    have hi : i < len := by
      have := Nat.zero_le (vs.length * step); omega
    refine ih (outWf_cellPut hm hi v) fun hvs => ?_
    obtain ⟨k, hk⟩ : ∃ k, vs.length = k + 1 :=
      ⟨vs.length - 1, by have := List.length_pos_iff.mpr hvs; omega⟩
    rw [hk] at h ⊢
    simp only [Nat.add_sub_cancel]
    rw [Nat.succ_mul] at h
    omega

theorem bufWf_shiftCells {p : Config.Params} {m : Cells 32} (hm : BufWf p m) (n span : Nat) :
    BufWf p (shiftCells m n span) := by
  constructor
  · refine List.Pairwise.filterMap _ ?_ hm.1
    rintro ⟨a, x⟩ ⟨b, y⟩ hab ⟨c, z⟩ hc ⟨d, u⟩ hd
    dsimp only at hab hc hd ⊢
    split_ifs at hc hd <;> simp_all <;> omega
  · rintro ⟨c, z⟩ he
    obtain ⟨⟨a, x⟩, ha, hc⟩ := List.mem_filterMap.mp he
    obtain ⟨hx, ha'⟩ := hm.2 _ ha
    dsimp only at hc hx ha' ⊢
    split_ifs at hc <;> simp only [Option.some.injEq, Prod.mk.injEq] at hc <;>
      obtain ⟨rfl, rfl⟩ := hc <;> exact ⟨hx, by omega⟩

/-! ### Reading BUF after each operation -/

@[simp] theorem bufRead_nil (i : Nat) : bufRead [] i = 0#32 := rfl

/-- A read after a write: the value written at its index, what was there elsewhere. -/
theorem bufRead_bufWrite (m : Cells 32) (i j : Nat) (v : Word) :
    bufRead (bufWrite m i v) j = if j = i then v else bufRead m j := by
  unfold bufRead bufWrite
  by_cases hv : v = 0#32 <;> by_cases hj : j = i <;>
    simp [hv, hj, cellFind_cellErase, cellFind_cellPut]

theorem bufRead_bufAdd (m : Cells 32) (i j : Nat) (c : Int) :
    bufRead (bufAdd m i c) j
      = if j = i then bufRead m j + BitVec.ofInt 32 c else bufRead m j := by
  unfold bufAdd
  rw [bufRead_bufWrite]
  split_ifs with h
  · subst h; simp [BitVec.ofInt_add]
  · rfl

/-- Adding a list of values from `base` up adds its k-th value to cell base + k and nothing
elsewhere. -/
theorem bufRead_addCells (cs : List Int) :
    ∀ (m : Cells 32) (base j : Nat),
      bufRead (addCells m base cs) j
        = bufRead m j
          + (if base ≤ j then BitVec.ofInt 32 (cs.getD (j - base) 0) else 0#32) := by
  induction cs with
  | nil => intro m base j; simp [addCells]
  | cons c cs ih =>
    intro m base j
    simp only [addCells, ih, bufRead_bufAdd]
    rcases Nat.lt_trichotomy j base with h | h | h
    · simp [Nat.ne_of_lt h, Nat.not_le.mpr h, Nat.not_le.mpr (Nat.lt_succ_of_lt h)]
    · subst h; simp
    · obtain ⟨k, rfl⟩ : ∃ k, j = base + 1 + k := ⟨j - (base + 1), by omega⟩
      have h1 : base ≤ base + 1 + k := by omega
      have h2 : base + 1 + k - base = k + 1 := by omega
      have h3 : base + 1 + k ≠ base := by omega
      simp [h1, h2, h3]

/-- A read after the window move: below the span the cell n further on, then zeros, and beyond it
what was there. -/
theorem bufRead_shiftCells (m : Cells 32) (n span j : Nat) (hn : n ≤ span) :
    bufRead (shiftCells m n span) j
      = if j + n < span then bufRead m (j + n)
        else if j < span then 0#32 else bufRead m j := by
  have key : cellFind (shiftCells m n span) j
      = if j + n < span then cellFind m (j + n)
        else if j < span then none else cellFind m j := by
    induction m with
    | nil => simp [shiftCells]
    | cons e m ih =>
      obtain ⟨k, x⟩ := e
      unfold shiftCells at ih ⊢
      rw [List.filterMap_cons]
      by_cases h1 : k < span <;> by_cases h2 : k < n <;>
        by_cases h3 : j + n < span <;> by_cases h4 : j < span <;>
        simp only [h1, h2, h3, h4, if_true, if_false, cellFind] at ih ⊢ <;>
        (try rw [ih]) <;> (try split_ifs) <;> first | rfl | omega
  unfold bufRead
  rw [key]
  split_ifs <;> rfl

/-! ### Reading an output memory after a run -/

/-- Elements outside a run keep what they held. -/
theorem cellFind_writeRun_other {w : Nat} (step : Nat) (vs : List (BitVec w)) :
    ∀ (m : Cells w) (i j : Nat), (∀ k, k < vs.length → j ≠ i + k * step) →
      cellFind (writeRun m i step vs) j = cellFind m j := by
  induction vs with
  | nil => intro m i j _; rfl
  | cons v vs ih =>
    intro m i j hj
    rw [writeRun, ih, cellFind_cellPut]
    · have := hj 0 (by simp)
      simp only [Nat.zero_mul, Nat.add_zero] at this
      simp [this]
    · intro k hk
      have := hj (k + 1) (by simpa using hk)
      rw [Nat.succ_mul] at this
      omega

/-- Element k of a run holds its k-th value. -/
theorem cellFind_writeRun {w : Nat} (step : Nat) (hstep : 0 < step) (vs : List (BitVec w)) :
    ∀ (m : Cells w) (i k : Nat) (hk : k < vs.length),
      cellFind (writeRun m i step vs) (i + k * step) = some vs[k] := by
  induction vs with
  | nil => intro m i k hk; simp at hk
  | cons v vs ih =>
    intro m i k hk
    cases k with
    | zero =>
      rw [writeRun, cellFind_writeRun_other]
      · simp
      · intro k _
        have := Nat.zero_le (k * step)
        omega
    | succ k =>
      have h : i + (k + 1) * step = (i + step) + k * step := by rw [Nat.succ_mul]; omega
      rw [writeRun, h, ih _ _ k (by simpa using hk)]
      rfl

/-- Canonical BUFs that read alike are equal. -/
theorem buf_ext {p : Config.Params} {m m' : Cells 32} (hm : BufWf p m) (hm' : BufWf p m')
    (h : ∀ i, bufRead m i = bufRead m' i) : m = m' := by
  have sub : ∀ {a b : Cells 32}, BufWf p a → BufWf p b → (∀ i, bufRead a i = bufRead b i) →
      ∀ e ∈ a, e ∈ b := by
    intro a b ha hb hab e he
    have h1 : bufRead a e.1 = e.2 := by simp [bufRead, cellFind_of_mem ha.1 he]
    have h2 := hab e.1
    rw [h1] at h2
    cases hf : cellFind b e.1 with
    | none =>
      have : bufRead b e.1 = 0#32 := by simp [bufRead, hf]
      exact absurd (h2.trans this) (ha.2 e he).1
    | some v =>
      have hv : bufRead b e.1 = v := by simp [bufRead, hf]
      have hev : e = (e.1, v) := Prod.ext rfl (h2.trans hv)
      rw [hev]
      exact mem_of_cellFind hf
  have nd : ∀ {a : Cells 32}, Ascending a → a.Nodup := fun ha =>
    ha.imp fun {x y} hxy he => by subst he; exact Nat.lt_irrefl _ hxy
  refine List.Perm.eq_of_pairwise (le := fun a b : Nat × BitVec 32 => a.1 < b.1)
    (fun a b _ _ hab hba => absurd hba (Nat.not_lt.mpr (Nat.le_of_lt hab))) hm.1 hm'.1 ?_
  rw [List.perm_ext_iff_of_nodup (nd hm.1) (nd hm'.1)]
  exact fun e => ⟨sub hm hm' h e, sub hm' hm (fun i => (h i).symm) e⟩

end Sys2Proof.Machine
end

