-- ==== Sys2Proof/Laws/State.lean ====
section
/-! SUPPORT. What each named update of the state does to each field: one lemma per field per update,
all true by rfl, for simp. -/

namespace Sys2Proof.Machine

@[simp] theorem State.withArg0_params (s : State) (v : Word) : (s.withArg0 v).params = s.params := rfl
@[simp] theorem State.withArg0_arg0 (s : State) (v : Word) : (s.withArg0 v).arg0 = v := rfl
@[simp] theorem State.withArg0_arg1 (s : State) (v : Word) : (s.withArg0 v).arg1 = s.arg1 := rfl
@[simp] theorem State.withArg0_code (s : State) (v : Word) : (s.withArg0 v).code = s.code := rfl
@[simp] theorem State.withArg0_fatal (s : State) (v : Word) : (s.withArg0 v).fatal = s.fatal := rfl
@[simp] theorem State.withArg0_result (s : State) (v : Word) : (s.withArg0 v).result = s.result := rfl
@[simp] theorem State.withArg0_avail (s : State) (v : Word) : (s.withArg0 v).avail = s.avail := rfl
@[simp] theorem State.withArg0_factor (s : State) (v : Word) : (s.withArg0 v).factor = s.factor := rfl
@[simp] theorem State.withArg0_offset (s : State) (v : Word) : (s.withArg0 v).offset = s.offset := rfl
@[simp] theorem State.withArg0_integrator (s : State) (v : Word) : (s.withArg0 v).integrator = s.integrator := rfl
@[simp] theorem State.withArg0_buf (s : State) (v : Word) : (s.withArg0 v).buf = s.buf := rfl
@[simp] theorem State.withArg0_out16 (s : State) (v : Word) : (s.withArg0 v).out16 = s.out16 := rfl
@[simp] theorem State.withArg0_outF (s : State) (v : Word) : (s.withArg0 v).outF = s.outF := rfl
@[simp] theorem State.withArg0_script (s : State) (v : Word) : (s.withArg0 v).script = s.script := rfl
@[simp] theorem State.withArg0_reads (s : State) (v : Word) : (s.withArg0 v).reads = s.reads := rfl

@[simp] theorem State.withArg1_params (s : State) (v : Word) : (s.withArg1 v).params = s.params := rfl
@[simp] theorem State.withArg1_arg0 (s : State) (v : Word) : (s.withArg1 v).arg0 = s.arg0 := rfl
@[simp] theorem State.withArg1_arg1 (s : State) (v : Word) : (s.withArg1 v).arg1 = v := rfl
@[simp] theorem State.withArg1_code (s : State) (v : Word) : (s.withArg1 v).code = s.code := rfl
@[simp] theorem State.withArg1_fatal (s : State) (v : Word) : (s.withArg1 v).fatal = s.fatal := rfl
@[simp] theorem State.withArg1_result (s : State) (v : Word) : (s.withArg1 v).result = s.result := rfl
@[simp] theorem State.withArg1_avail (s : State) (v : Word) : (s.withArg1 v).avail = s.avail := rfl
@[simp] theorem State.withArg1_factor (s : State) (v : Word) : (s.withArg1 v).factor = s.factor := rfl
@[simp] theorem State.withArg1_offset (s : State) (v : Word) : (s.withArg1 v).offset = s.offset := rfl
@[simp] theorem State.withArg1_integrator (s : State) (v : Word) : (s.withArg1 v).integrator = s.integrator := rfl
@[simp] theorem State.withArg1_buf (s : State) (v : Word) : (s.withArg1 v).buf = s.buf := rfl
@[simp] theorem State.withArg1_out16 (s : State) (v : Word) : (s.withArg1 v).out16 = s.out16 := rfl
@[simp] theorem State.withArg1_outF (s : State) (v : Word) : (s.withArg1 v).outF = s.outF := rfl
@[simp] theorem State.withArg1_script (s : State) (v : Word) : (s.withArg1 v).script = s.script := rfl
@[simp] theorem State.withArg1_reads (s : State) (v : Word) : (s.withArg1 v).reads = s.reads := rfl

@[simp] theorem State.withCode_params (s : State) (v : BitVec 8) : (s.withCode v).params = s.params := rfl
@[simp] theorem State.withCode_arg0 (s : State) (v : BitVec 8) : (s.withCode v).arg0 = s.arg0 := rfl
@[simp] theorem State.withCode_arg1 (s : State) (v : BitVec 8) : (s.withCode v).arg1 = s.arg1 := rfl
@[simp] theorem State.withCode_code (s : State) (v : BitVec 8) : (s.withCode v).code = v := rfl
@[simp] theorem State.withCode_fatal (s : State) (v : BitVec 8) : (s.withCode v).fatal = s.fatal := rfl
@[simp] theorem State.withCode_result (s : State) (v : BitVec 8) : (s.withCode v).result = s.result := rfl
@[simp] theorem State.withCode_avail (s : State) (v : BitVec 8) : (s.withCode v).avail = s.avail := rfl
@[simp] theorem State.withCode_factor (s : State) (v : BitVec 8) : (s.withCode v).factor = s.factor := rfl
@[simp] theorem State.withCode_offset (s : State) (v : BitVec 8) : (s.withCode v).offset = s.offset := rfl
@[simp] theorem State.withCode_integrator (s : State) (v : BitVec 8) : (s.withCode v).integrator = s.integrator := rfl
@[simp] theorem State.withCode_buf (s : State) (v : BitVec 8) : (s.withCode v).buf = s.buf := rfl
@[simp] theorem State.withCode_out16 (s : State) (v : BitVec 8) : (s.withCode v).out16 = s.out16 := rfl
@[simp] theorem State.withCode_outF (s : State) (v : BitVec 8) : (s.withCode v).outF = s.outF := rfl
@[simp] theorem State.withCode_script (s : State) (v : BitVec 8) : (s.withCode v).script = s.script := rfl
@[simp] theorem State.withCode_reads (s : State) (v : BitVec 8) : (s.withCode v).reads = s.reads := rfl

@[simp] theorem State.withFatal_params (s : State) (v : Bool) : (s.withFatal v).params = s.params := rfl
@[simp] theorem State.withFatal_arg0 (s : State) (v : Bool) : (s.withFatal v).arg0 = s.arg0 := rfl
@[simp] theorem State.withFatal_arg1 (s : State) (v : Bool) : (s.withFatal v).arg1 = s.arg1 := rfl
@[simp] theorem State.withFatal_code (s : State) (v : Bool) : (s.withFatal v).code = s.code := rfl
@[simp] theorem State.withFatal_fatal (s : State) (v : Bool) : (s.withFatal v).fatal = v := rfl
@[simp] theorem State.withFatal_result (s : State) (v : Bool) : (s.withFatal v).result = s.result := rfl
@[simp] theorem State.withFatal_avail (s : State) (v : Bool) : (s.withFatal v).avail = s.avail := rfl
@[simp] theorem State.withFatal_factor (s : State) (v : Bool) : (s.withFatal v).factor = s.factor := rfl
@[simp] theorem State.withFatal_offset (s : State) (v : Bool) : (s.withFatal v).offset = s.offset := rfl
@[simp] theorem State.withFatal_integrator (s : State) (v : Bool) : (s.withFatal v).integrator = s.integrator := rfl
@[simp] theorem State.withFatal_buf (s : State) (v : Bool) : (s.withFatal v).buf = s.buf := rfl
@[simp] theorem State.withFatal_out16 (s : State) (v : Bool) : (s.withFatal v).out16 = s.out16 := rfl
@[simp] theorem State.withFatal_outF (s : State) (v : Bool) : (s.withFatal v).outF = s.outF := rfl
@[simp] theorem State.withFatal_script (s : State) (v : Bool) : (s.withFatal v).script = s.script := rfl
@[simp] theorem State.withFatal_reads (s : State) (v : Bool) : (s.withFatal v).reads = s.reads := rfl

@[simp] theorem State.withResult_params (s : State) (v : DWord) : (s.withResult v).params = s.params := rfl
@[simp] theorem State.withResult_arg0 (s : State) (v : DWord) : (s.withResult v).arg0 = s.arg0 := rfl
@[simp] theorem State.withResult_arg1 (s : State) (v : DWord) : (s.withResult v).arg1 = s.arg1 := rfl
@[simp] theorem State.withResult_code (s : State) (v : DWord) : (s.withResult v).code = s.code := rfl
@[simp] theorem State.withResult_fatal (s : State) (v : DWord) : (s.withResult v).fatal = s.fatal := rfl
@[simp] theorem State.withResult_result (s : State) (v : DWord) : (s.withResult v).result = v := rfl
@[simp] theorem State.withResult_avail (s : State) (v : DWord) : (s.withResult v).avail = s.avail := rfl
@[simp] theorem State.withResult_factor (s : State) (v : DWord) : (s.withResult v).factor = s.factor := rfl
@[simp] theorem State.withResult_offset (s : State) (v : DWord) : (s.withResult v).offset = s.offset := rfl
@[simp] theorem State.withResult_integrator (s : State) (v : DWord) : (s.withResult v).integrator = s.integrator := rfl
@[simp] theorem State.withResult_buf (s : State) (v : DWord) : (s.withResult v).buf = s.buf := rfl
@[simp] theorem State.withResult_out16 (s : State) (v : DWord) : (s.withResult v).out16 = s.out16 := rfl
@[simp] theorem State.withResult_outF (s : State) (v : DWord) : (s.withResult v).outF = s.outF := rfl
@[simp] theorem State.withResult_script (s : State) (v : DWord) : (s.withResult v).script = s.script := rfl
@[simp] theorem State.withResult_reads (s : State) (v : DWord) : (s.withResult v).reads = s.reads := rfl

@[simp] theorem State.withAvail_params (s : State) (v : Word) : (s.withAvail v).params = s.params := rfl
@[simp] theorem State.withAvail_arg0 (s : State) (v : Word) : (s.withAvail v).arg0 = s.arg0 := rfl
@[simp] theorem State.withAvail_arg1 (s : State) (v : Word) : (s.withAvail v).arg1 = s.arg1 := rfl
@[simp] theorem State.withAvail_code (s : State) (v : Word) : (s.withAvail v).code = s.code := rfl
@[simp] theorem State.withAvail_fatal (s : State) (v : Word) : (s.withAvail v).fatal = s.fatal := rfl
@[simp] theorem State.withAvail_result (s : State) (v : Word) : (s.withAvail v).result = s.result := rfl
@[simp] theorem State.withAvail_avail (s : State) (v : Word) : (s.withAvail v).avail = v := rfl
@[simp] theorem State.withAvail_factor (s : State) (v : Word) : (s.withAvail v).factor = s.factor := rfl
@[simp] theorem State.withAvail_offset (s : State) (v : Word) : (s.withAvail v).offset = s.offset := rfl
@[simp] theorem State.withAvail_integrator (s : State) (v : Word) : (s.withAvail v).integrator = s.integrator := rfl
@[simp] theorem State.withAvail_buf (s : State) (v : Word) : (s.withAvail v).buf = s.buf := rfl
@[simp] theorem State.withAvail_out16 (s : State) (v : Word) : (s.withAvail v).out16 = s.out16 := rfl
@[simp] theorem State.withAvail_outF (s : State) (v : Word) : (s.withAvail v).outF = s.outF := rfl
@[simp] theorem State.withAvail_script (s : State) (v : Word) : (s.withAvail v).script = s.script := rfl
@[simp] theorem State.withAvail_reads (s : State) (v : Word) : (s.withAvail v).reads = s.reads := rfl

@[simp] theorem State.withFactor_params (s : State) (v : DWord) : (s.withFactor v).params = s.params := rfl
@[simp] theorem State.withFactor_arg0 (s : State) (v : DWord) : (s.withFactor v).arg0 = s.arg0 := rfl
@[simp] theorem State.withFactor_arg1 (s : State) (v : DWord) : (s.withFactor v).arg1 = s.arg1 := rfl
@[simp] theorem State.withFactor_code (s : State) (v : DWord) : (s.withFactor v).code = s.code := rfl
@[simp] theorem State.withFactor_fatal (s : State) (v : DWord) : (s.withFactor v).fatal = s.fatal := rfl
@[simp] theorem State.withFactor_result (s : State) (v : DWord) : (s.withFactor v).result = s.result := rfl
@[simp] theorem State.withFactor_avail (s : State) (v : DWord) : (s.withFactor v).avail = s.avail := rfl
@[simp] theorem State.withFactor_factor (s : State) (v : DWord) : (s.withFactor v).factor = v := rfl
@[simp] theorem State.withFactor_offset (s : State) (v : DWord) : (s.withFactor v).offset = s.offset := rfl
@[simp] theorem State.withFactor_integrator (s : State) (v : DWord) : (s.withFactor v).integrator = s.integrator := rfl
@[simp] theorem State.withFactor_buf (s : State) (v : DWord) : (s.withFactor v).buf = s.buf := rfl
@[simp] theorem State.withFactor_out16 (s : State) (v : DWord) : (s.withFactor v).out16 = s.out16 := rfl
@[simp] theorem State.withFactor_outF (s : State) (v : DWord) : (s.withFactor v).outF = s.outF := rfl
@[simp] theorem State.withFactor_script (s : State) (v : DWord) : (s.withFactor v).script = s.script := rfl
@[simp] theorem State.withFactor_reads (s : State) (v : DWord) : (s.withFactor v).reads = s.reads := rfl

@[simp] theorem State.withOffset_params (s : State) (v : DWord) : (s.withOffset v).params = s.params := rfl
@[simp] theorem State.withOffset_arg0 (s : State) (v : DWord) : (s.withOffset v).arg0 = s.arg0 := rfl
@[simp] theorem State.withOffset_arg1 (s : State) (v : DWord) : (s.withOffset v).arg1 = s.arg1 := rfl
@[simp] theorem State.withOffset_code (s : State) (v : DWord) : (s.withOffset v).code = s.code := rfl
@[simp] theorem State.withOffset_fatal (s : State) (v : DWord) : (s.withOffset v).fatal = s.fatal := rfl
@[simp] theorem State.withOffset_result (s : State) (v : DWord) : (s.withOffset v).result = s.result := rfl
@[simp] theorem State.withOffset_avail (s : State) (v : DWord) : (s.withOffset v).avail = s.avail := rfl
@[simp] theorem State.withOffset_factor (s : State) (v : DWord) : (s.withOffset v).factor = s.factor := rfl
@[simp] theorem State.withOffset_offset (s : State) (v : DWord) : (s.withOffset v).offset = v := rfl
@[simp] theorem State.withOffset_integrator (s : State) (v : DWord) : (s.withOffset v).integrator = s.integrator := rfl
@[simp] theorem State.withOffset_buf (s : State) (v : DWord) : (s.withOffset v).buf = s.buf := rfl
@[simp] theorem State.withOffset_out16 (s : State) (v : DWord) : (s.withOffset v).out16 = s.out16 := rfl
@[simp] theorem State.withOffset_outF (s : State) (v : DWord) : (s.withOffset v).outF = s.outF := rfl
@[simp] theorem State.withOffset_script (s : State) (v : DWord) : (s.withOffset v).script = s.script := rfl
@[simp] theorem State.withOffset_reads (s : State) (v : DWord) : (s.withOffset v).reads = s.reads := rfl

@[simp] theorem State.withIntegrator_params (s : State) (v : Word) : (s.withIntegrator v).params = s.params := rfl
@[simp] theorem State.withIntegrator_arg0 (s : State) (v : Word) : (s.withIntegrator v).arg0 = s.arg0 := rfl
@[simp] theorem State.withIntegrator_arg1 (s : State) (v : Word) : (s.withIntegrator v).arg1 = s.arg1 := rfl
@[simp] theorem State.withIntegrator_code (s : State) (v : Word) : (s.withIntegrator v).code = s.code := rfl
@[simp] theorem State.withIntegrator_fatal (s : State) (v : Word) : (s.withIntegrator v).fatal = s.fatal := rfl
@[simp] theorem State.withIntegrator_result (s : State) (v : Word) : (s.withIntegrator v).result = s.result := rfl
@[simp] theorem State.withIntegrator_avail (s : State) (v : Word) : (s.withIntegrator v).avail = s.avail := rfl
@[simp] theorem State.withIntegrator_factor (s : State) (v : Word) : (s.withIntegrator v).factor = s.factor := rfl
@[simp] theorem State.withIntegrator_offset (s : State) (v : Word) : (s.withIntegrator v).offset = s.offset := rfl
@[simp] theorem State.withIntegrator_integrator (s : State) (v : Word) : (s.withIntegrator v).integrator = v := rfl
@[simp] theorem State.withIntegrator_buf (s : State) (v : Word) : (s.withIntegrator v).buf = s.buf := rfl
@[simp] theorem State.withIntegrator_out16 (s : State) (v : Word) : (s.withIntegrator v).out16 = s.out16 := rfl
@[simp] theorem State.withIntegrator_outF (s : State) (v : Word) : (s.withIntegrator v).outF = s.outF := rfl
@[simp] theorem State.withIntegrator_script (s : State) (v : Word) : (s.withIntegrator v).script = s.script := rfl
@[simp] theorem State.withIntegrator_reads (s : State) (v : Word) : (s.withIntegrator v).reads = s.reads := rfl

@[simp] theorem State.withBuf_params (s : State) (v : Cells 32) : (s.withBuf v).params = s.params := rfl
@[simp] theorem State.withBuf_arg0 (s : State) (v : Cells 32) : (s.withBuf v).arg0 = s.arg0 := rfl
@[simp] theorem State.withBuf_arg1 (s : State) (v : Cells 32) : (s.withBuf v).arg1 = s.arg1 := rfl
@[simp] theorem State.withBuf_code (s : State) (v : Cells 32) : (s.withBuf v).code = s.code := rfl
@[simp] theorem State.withBuf_fatal (s : State) (v : Cells 32) : (s.withBuf v).fatal = s.fatal := rfl
@[simp] theorem State.withBuf_result (s : State) (v : Cells 32) : (s.withBuf v).result = s.result := rfl
@[simp] theorem State.withBuf_avail (s : State) (v : Cells 32) : (s.withBuf v).avail = s.avail := rfl
@[simp] theorem State.withBuf_factor (s : State) (v : Cells 32) : (s.withBuf v).factor = s.factor := rfl
@[simp] theorem State.withBuf_offset (s : State) (v : Cells 32) : (s.withBuf v).offset = s.offset := rfl
@[simp] theorem State.withBuf_integrator (s : State) (v : Cells 32) : (s.withBuf v).integrator = s.integrator := rfl
@[simp] theorem State.withBuf_buf (s : State) (v : Cells 32) : (s.withBuf v).buf = v := rfl
@[simp] theorem State.withBuf_out16 (s : State) (v : Cells 32) : (s.withBuf v).out16 = s.out16 := rfl
@[simp] theorem State.withBuf_outF (s : State) (v : Cells 32) : (s.withBuf v).outF = s.outF := rfl
@[simp] theorem State.withBuf_script (s : State) (v : Cells 32) : (s.withBuf v).script = s.script := rfl
@[simp] theorem State.withBuf_reads (s : State) (v : Cells 32) : (s.withBuf v).reads = s.reads := rfl

@[simp] theorem State.withOut16_params (s : State) (v : Cells 16) : (s.withOut16 v).params = s.params := rfl
@[simp] theorem State.withOut16_arg0 (s : State) (v : Cells 16) : (s.withOut16 v).arg0 = s.arg0 := rfl
@[simp] theorem State.withOut16_arg1 (s : State) (v : Cells 16) : (s.withOut16 v).arg1 = s.arg1 := rfl
@[simp] theorem State.withOut16_code (s : State) (v : Cells 16) : (s.withOut16 v).code = s.code := rfl
@[simp] theorem State.withOut16_fatal (s : State) (v : Cells 16) : (s.withOut16 v).fatal = s.fatal := rfl
@[simp] theorem State.withOut16_result (s : State) (v : Cells 16) : (s.withOut16 v).result = s.result := rfl
@[simp] theorem State.withOut16_avail (s : State) (v : Cells 16) : (s.withOut16 v).avail = s.avail := rfl
@[simp] theorem State.withOut16_factor (s : State) (v : Cells 16) : (s.withOut16 v).factor = s.factor := rfl
@[simp] theorem State.withOut16_offset (s : State) (v : Cells 16) : (s.withOut16 v).offset = s.offset := rfl
@[simp] theorem State.withOut16_integrator (s : State) (v : Cells 16) : (s.withOut16 v).integrator = s.integrator := rfl
@[simp] theorem State.withOut16_buf (s : State) (v : Cells 16) : (s.withOut16 v).buf = s.buf := rfl
@[simp] theorem State.withOut16_out16 (s : State) (v : Cells 16) : (s.withOut16 v).out16 = v := rfl
@[simp] theorem State.withOut16_outF (s : State) (v : Cells 16) : (s.withOut16 v).outF = s.outF := rfl
@[simp] theorem State.withOut16_script (s : State) (v : Cells 16) : (s.withOut16 v).script = s.script := rfl
@[simp] theorem State.withOut16_reads (s : State) (v : Cells 16) : (s.withOut16 v).reads = s.reads := rfl

@[simp] theorem State.withOutF_params (s : State) (v : Cells 32) : (s.withOutF v).params = s.params := rfl
@[simp] theorem State.withOutF_arg0 (s : State) (v : Cells 32) : (s.withOutF v).arg0 = s.arg0 := rfl
@[simp] theorem State.withOutF_arg1 (s : State) (v : Cells 32) : (s.withOutF v).arg1 = s.arg1 := rfl
@[simp] theorem State.withOutF_code (s : State) (v : Cells 32) : (s.withOutF v).code = s.code := rfl
@[simp] theorem State.withOutF_fatal (s : State) (v : Cells 32) : (s.withOutF v).fatal = s.fatal := rfl
@[simp] theorem State.withOutF_result (s : State) (v : Cells 32) : (s.withOutF v).result = s.result := rfl
@[simp] theorem State.withOutF_avail (s : State) (v : Cells 32) : (s.withOutF v).avail = s.avail := rfl
@[simp] theorem State.withOutF_factor (s : State) (v : Cells 32) : (s.withOutF v).factor = s.factor := rfl
@[simp] theorem State.withOutF_offset (s : State) (v : Cells 32) : (s.withOutF v).offset = s.offset := rfl
@[simp] theorem State.withOutF_integrator (s : State) (v : Cells 32) : (s.withOutF v).integrator = s.integrator := rfl
@[simp] theorem State.withOutF_buf (s : State) (v : Cells 32) : (s.withOutF v).buf = s.buf := rfl
@[simp] theorem State.withOutF_out16 (s : State) (v : Cells 32) : (s.withOutF v).out16 = s.out16 := rfl
@[simp] theorem State.withOutF_outF (s : State) (v : Cells 32) : (s.withOutF v).outF = v := rfl
@[simp] theorem State.withOutF_script (s : State) (v : Cells 32) : (s.withOutF v).script = s.script := rfl
@[simp] theorem State.withOutF_reads (s : State) (v : Cells 32) : (s.withOutF v).reads = s.reads := rfl

@[simp] theorem State.withScript_params (s : State) (v : List HostAction) : (s.withScript v).params = s.params := rfl
@[simp] theorem State.withScript_arg0 (s : State) (v : List HostAction) : (s.withScript v).arg0 = s.arg0 := rfl
@[simp] theorem State.withScript_arg1 (s : State) (v : List HostAction) : (s.withScript v).arg1 = s.arg1 := rfl
@[simp] theorem State.withScript_code (s : State) (v : List HostAction) : (s.withScript v).code = s.code := rfl
@[simp] theorem State.withScript_fatal (s : State) (v : List HostAction) : (s.withScript v).fatal = s.fatal := rfl
@[simp] theorem State.withScript_result (s : State) (v : List HostAction) : (s.withScript v).result = s.result := rfl
@[simp] theorem State.withScript_avail (s : State) (v : List HostAction) : (s.withScript v).avail = s.avail := rfl
@[simp] theorem State.withScript_factor (s : State) (v : List HostAction) : (s.withScript v).factor = s.factor := rfl
@[simp] theorem State.withScript_offset (s : State) (v : List HostAction) : (s.withScript v).offset = s.offset := rfl
@[simp] theorem State.withScript_integrator (s : State) (v : List HostAction) : (s.withScript v).integrator = s.integrator := rfl
@[simp] theorem State.withScript_buf (s : State) (v : List HostAction) : (s.withScript v).buf = s.buf := rfl
@[simp] theorem State.withScript_out16 (s : State) (v : List HostAction) : (s.withScript v).out16 = s.out16 := rfl
@[simp] theorem State.withScript_outF (s : State) (v : List HostAction) : (s.withScript v).outF = s.outF := rfl
@[simp] theorem State.withScript_script (s : State) (v : List HostAction) : (s.withScript v).script = v := rfl
@[simp] theorem State.withScript_reads (s : State) (v : List HostAction) : (s.withScript v).reads = s.reads := rfl

@[simp] theorem State.withReads_params (s : State) (v : List Word) : (s.withReads v).params = s.params := rfl
@[simp] theorem State.withReads_arg0 (s : State) (v : List Word) : (s.withReads v).arg0 = s.arg0 := rfl
@[simp] theorem State.withReads_arg1 (s : State) (v : List Word) : (s.withReads v).arg1 = s.arg1 := rfl
@[simp] theorem State.withReads_code (s : State) (v : List Word) : (s.withReads v).code = s.code := rfl
@[simp] theorem State.withReads_fatal (s : State) (v : List Word) : (s.withReads v).fatal = s.fatal := rfl
@[simp] theorem State.withReads_result (s : State) (v : List Word) : (s.withReads v).result = s.result := rfl
@[simp] theorem State.withReads_avail (s : State) (v : List Word) : (s.withReads v).avail = s.avail := rfl
@[simp] theorem State.withReads_factor (s : State) (v : List Word) : (s.withReads v).factor = s.factor := rfl
@[simp] theorem State.withReads_offset (s : State) (v : List Word) : (s.withReads v).offset = s.offset := rfl
@[simp] theorem State.withReads_integrator (s : State) (v : List Word) : (s.withReads v).integrator = s.integrator := rfl
@[simp] theorem State.withReads_buf (s : State) (v : List Word) : (s.withReads v).buf = s.buf := rfl
@[simp] theorem State.withReads_out16 (s : State) (v : List Word) : (s.withReads v).out16 = s.out16 := rfl
@[simp] theorem State.withReads_outF (s : State) (v : List Word) : (s.withReads v).outF = s.outF := rfl
@[simp] theorem State.withReads_script (s : State) (v : List Word) : (s.withReads v).script = s.script := rfl
@[simp] theorem State.withReads_reads (s : State) (v : List Word) : (s.withReads v).reads = v := rfl

end Sys2Proof.Machine
end

