-- ==== Sys2Proof/Laws/Ops.lean ====
section
/-! SUPPORT. What the shared operations of the commands can do, once each: the halted check, the two
ends of a command, operands, samples and the procedure EXTRACT. -/

namespace Sys2Proof.Machine

/-! ### The ends of a command -/

/-- Raising anything but ERR_FRAME_OVERFLOW writes CODE alone. -/
theorem raise_eq_withCode (c : Code) (s : State) (h : c.setsFatal = false) :
    raise c s = .next (s.withCode c.bits) := by
  simp [raise, h, State.withFatal]

theorem raise_frameOverflow (s : State) :
    raise .frameOverflow s = .next ((s.withFatal true).withCode Code.frameOverflow.bits) := by
  simp [raise, Code.setsFatal]

/-- Raising an error answers a next state that differs in CODE and FATAL at most. -/
theorem raise_next {c : Code} {s t : State} (h : raise c s = .next t) :
    t = { s with code := c.bits, fatal := s.fatal || c.setsFatal } := by
  simp only [raise, Host.Outcome.next.injEq] at h
  exact h.symm

theorem finish_next {s t : State} (h : finish s = .next t) : t = { s with code := 0#8 } := by
  simp only [finish, Host.Outcome.next.injEq] at h
  exact h.symm

@[simp] theorem unlessHalted_running {s : State} (h : s.fatal = false)
    (k : State → Host.Outcome State Fault Refusal) : unlessHalted s k = k s := by
  simp [unlessHalted, h]

@[simp] theorem unlessHalted_halted {s : State} (h : s.fatal = true)
    (k : State → Host.Outcome State Fault Refusal) :
    unlessHalted s k = .next { s with code := 0x07#8 } := by
  rw [unlessHalted, if_pos h, raise_eq_withCode _ _ rfl]
  rfl

/-- What a guarded command can answer: the refusal of a halted CORE, or what the command answers. -/
theorem unlessHalted_cases {s : State} {k : State → Host.Outcome State Fault Refusal}
    {o : Host.Outcome State Fault Refusal} (h : unlessHalted s k = o) :
    (s.fatal = true ∧ o = .next { s with code := 0x07#8 }) ∨ (s.fatal = false ∧ k s = o) := by
  by_cases hf : s.fatal = true
  · exact .inl ⟨hf, by rw [← h, unlessHalted_halted hf]⟩
  · exact .inr ⟨by simpa using hf, by rw [← h, unlessHalted_running (by simpa using hf)]⟩

/-! ### Operators (00_scope.md R10) -/

theorem ceilDiv_le_iff {a b q : Nat} (hb : 0 < b) : ceilDiv a b ≤ q ↔ a ≤ q * b := by
  unfold ceilDiv
  rw [← Nat.lt_succ_iff, Nat.div_lt_iff_lt_mul hb, Nat.succ_mul]
  omega

theorem lt_ceilDiv_iff {a b q : Nat} (hb : 0 < b) : q < ceilDiv a b ↔ q * b < a := by
  rw [← Nat.not_le, ceilDiv_le_iff hb, Nat.not_le]

theorem le_ceilDiv_mul {a b : Nat} (hb : 0 < b) : a ≤ ceilDiv a b * b :=
  (ceilDiv_le_iff hb).mp (Nat.le_refl _)

theorem clamp16_range (s : Int) : -32768 ≤ clamp16 s ∧ clamp16 s ≤ 32767 := by
  unfold clamp16; omega

theorem u64_lt (v : Nat) : u64 v < 2 ^ 64 := Nat.mod_lt _ (by decide)

theorem initialPhase_lt_timeUnit (factor : DWord) :
    (initialPhase factor).toNat < Config.timeUnit := by
  simp only [initialPhase, Config.timeUnit, BitVec.toNat_ofNat]
  omega

/-! ### Positions (41_impulse_injector.md R100) -/

theorem clockPos_lt (s : State) (t : Nat) : clockPos s t < 2 ^ 64 := u64_lt _

theorem fixedPos_lt (s : State) (t : Nat) : fixedPos s t < 2 ^ 32 := by
  have := clockPos_lt s t
  simp only [fixedPos, Config.preShift]
  omega

theorem phaseOf_lt (fixed : Nat) : phaseOf fixed < 32 := Nat.mod_lt _ (by decide)

theorem interpOf_lt (fixed : Nat) : interpOf fixed < 32768 := Nat.mod_lt _ (by decide)

theorem fastWeight_lt (fixed : Nat) : fastWeight fixed < 32768 := Nat.mod_lt _ (by decide)

theorem frameSamples_lt (s : State) (T : Nat) : frameSamples s T < 4096 := by
  have := clockPos_lt s T
  simp only [frameSamples, Config.timeUnit]
  omega

theorem frameRemainder_lt (s : State) (T : Nat) : frameRemainder s T < Config.timeUnit :=
  Nat.mod_lt _ (by decide)

@[simp] theorem length_preciseTaps (K : Config.Kernel) (fixed : Nat) (d : Int) :
    (preciseTaps K fixed d).length = 16 := by simp [preciseTaps, Config.halfWidth]

@[simp] theorem length_fastTaps (fixed : Nat) (d : Int) : (fastTaps fixed d).length = 2 := rfl

/-- An injection's cells lie in BUF when its target passes the range check. -/
theorem targetCell_le {s : State} {t : Nat} (h : ¬ TargetOutOfRange s t) :
    targetCell s t + 16 ≤ bufLen s.params := by
  simp only [TargetOutOfRange, Config.endFrameExtra] at h
  simp only [bufLen, Config.bufExtra]
  omega

/-! ### Samples (43_sample_extractor.md R140) -/

@[simp] theorem length_extractCells (order : Config.SampleOrder) (cells : List Word) :
    ∀ acc, (extractCells order acc cells).1.length = cells.length := by
  induction cells with
  | nil => intro acc; rfl
  | cons c cs ih => intro acc; simp [extractCells, ih]

theorem sampleOf_range (acc : Word) : -32768 ≤ sampleOf acc ∧ sampleOf acc ≤ 32767 :=
  clamp16_range _

/-- The running sum before each cell: the state of the loop of R140. -/
def sumBefore (order : Config.SampleOrder) (acc : Word) (cells : List Word) : Nat → Word
  | 0 => acc
  | k + 1 => (extractCell order (sumBefore order acc cells k) (cells.getD k 0#32)).2

theorem sumBefore_cons (order : Config.SampleOrder) (acc c : Word) (cs : List Word) (k : Nat) :
    sumBefore order acc (c :: cs) (k + 1) = sumBefore order (extractCell order acc c).2 cs k := by
  induction k with
  | zero => rfl
  | succ k ih => rw [sumBefore, ih]; rfl

theorem extractCells_sum (order : Config.SampleOrder) (cells : List Word) :
    ∀ acc, (extractCells order acc cells).2 = sumBefore order acc cells cells.length := by
  induction cells with
  | nil => intro acc; rfl
  | cons c cs ih => intro acc; rw [extractCells, List.length_cons, sumBefore_cons, ← ih]

/-- Sample k is taken from the sum before cell k and from cell k. -/
theorem extractCells_sample (order : Config.SampleOrder) (cells : List Word) :
    ∀ acc k, k < cells.length →
      (extractCells order acc cells).1[k]?
        = some (extractCell order (sumBefore order acc cells k) (cells.getD k 0#32)).1 := by
  induction cells with
  | nil => intro acc k hk; simp at hk
  | cons c cs ih =>
    intro acc k hk
    cases k with
    | zero => rfl
    | succ k =>
      rw [sumBefore_cons]
      simpa [extractCells] using ih _ k (by simpa using hk)

@[simp] theorem length_bufFront (m : Cells 32) (n : Nat) : (bufFront m n).length = n := by
  simp [bufFront]

theorem getD_bufFront (m : Cells 32) {n k : Nat} (hk : k < n) :
    (bufFront m n).getD k 0#32 = bufRead m k := by
  simp [bufFront, List.getD, hk]

theorem readCount_le_avail (s : State) : readCount s ≤ s.avail.toNat := Nat.min_le_right _ _

theorem readCount_le_shiftSpan {s : State} (h : s.avail.toNat ≤ s.params.capacity) :
    readCount s ≤ shiftSpan s.params s.avail.toNat := by
  have := readCount_le_avail s
  simp only [shiftSpan, bufLen, Config.bufExtra]
  split <;> omega

@[simp] theorem length_readRun (s : State) : (readRun s).1.length = readCount s := by
  simp [readRun]

/-- EXTRACT answers in one of three ways: nothing to read, a run that does not fit, or a read. -/
theorem extract_cases (outLen : Nat) (write : State → List Int → State) (stereo : Bool) (s : State) :
    (readCount s = 0 ∧ extract outLen write stereo s = .next ((s.withResult 0#64).withCode 0#8)) ∨
    (readCount s ≠ 0 ∧ outLen ≤ operand1 s + (readCount s - 1) * outStep stereo ∧
      extract outLen write stereo s = .next (s.withCode 0x05#8)) ∨
    (readCount s ≠ 0 ∧ operand1 s + (readCount s - 1) * outStep stereo < outLen ∧
      extract outLen write stereo s
        = .next ((write (drainState s) (readRun s).1).withCode 0#8)) := by
  unfold extract
  by_cases h : readCount s = 0
  · exact .inl ⟨h, by rw [if_pos h]; rfl⟩
  · by_cases hr : outLen ≤ operand1 s + (readCount s - 1) * outStep stereo
    · refine .inr (.inl ⟨h, hr, ?_⟩)
      rw [if_neg h, if_pos hr, raise_eq_withCode _ _ rfl]
      rfl
    · refine .inr (.inr ⟨h, Nat.not_le.mp hr, ?_⟩)
      rw [if_neg h, if_neg hr]
      rfl

end Sys2Proof.Machine
end

