-- ==== Sys2Proof/Laws/Exec.lean ====
section
/-! SUPPORT. What each meaning answers on a CORE that is not halted, as one record of the state it
leaves: the lemma callers cite instead of unfolding the meaning. -/

namespace Sys2Proof.Machine

theorem finish_eq (s : State) : finish s = .next { s with code := 0#8 } := rfl

theorem finish_withResult (s : State) (v : DWord) :
    finish (s.withResult v) = .next { s with code := 0#8, result := v } := rfl

theorem finish_withBuf (s : State) (m : Cells 32) :
    finish (s.withBuf m) = .next { s with code := 0#8, buf := m } := rfl

theorem finish_withFactor (s : State) (v : DWord) :
    finish (s.withFactor v) = .next { s with code := 0#8, factor := v } := rfl

theorem finish_withAvail_withOffset (s : State) (a : Word) (o : DWord) :
    finish ((s.withAvail a).withOffset o) = .next { s with code := 0#8, avail := a, offset := o } :=
  rfl

theorem execClear_running {s : State} (hs : s.fatal = false) :
    execClear s = .next { s with code := 0#8, offset := initialPhase s.factor, avail := 0#32,
                                 integrator := 0#32, buf := [] } := by
  rw [execClear, unlessHalted_running hs, finish_eq]
  rfl

theorem execIllegal_running {s : State} (hs : s.fatal = false) :
    execIllegal s = .next { s with code := 0x01#8 } := by
  rw [execIllegal, unlessHalted_running hs, raise_eq_withCode _ _ rfl]
  rfl

theorem execSetRates_rejected {s : State} (hs : s.fatal = false)
    (h : RatesRejected (operand0 s) (operand1 s)) :
    execSetRates s = .next { s with code := 0x02#8 } := by
  rw [execSetRates, unlessHalted_running hs, if_pos h, raise_eq_withCode _ _ rfl]
  rfl

theorem execSetRates_accepted {s : State} (hs : s.fatal = false)
    (h : ¬ RatesRejected (operand0 s) (operand1 s)) :
    execSetRates s
      = .next { s with code := 0#8
                       factor := BitVec.ofNat 64 (rateFactor (operand0 s) (operand1 s)) } := by
  rw [execSetRates, unlessHalted_running hs, if_neg h, finish_withFactor]

theorem execAddDelta_outOfRange {s : State} (hs : s.fatal = false)
    (h : TargetOutOfRange s (operand0 s)) : execAddDelta s = .next { s with code := 0x03#8 } := by
  rw [execAddDelta, unlessHalted_running hs]
  simp only [if_pos h]
  rw [raise_eq_withCode _ _ rfl]
  rfl

theorem execAddDelta_inRange {s : State} (hs : s.fatal = false)
    (h : ¬ TargetOutOfRange s (operand0 s)) :
    execAddDelta s
      = .next { s with code := 0#8
                       buf := addCells s.buf (targetCell s (operand0 s))
                         (preciseTaps s.params.kernel (fixedPos s (operand0 s))
                           (deltaOperand s)) } := by
  rw [execAddDelta, unlessHalted_running hs]
  simp only [if_neg h, finish_withBuf]

theorem execAddDeltaFast_outOfRange {s : State} (hs : s.fatal = false)
    (h : TargetOutOfRange s (operand0 s)) :
    execAddDeltaFast s = .next { s with code := 0x03#8 } := by
  rw [execAddDeltaFast, unlessHalted_running hs]
  simp only [if_pos h]
  rw [raise_eq_withCode _ _ rfl]
  rfl

theorem execAddDeltaFast_inRange {s : State} (hs : s.fatal = false)
    (h : ¬ TargetOutOfRange s (operand0 s)) :
    execAddDeltaFast s
      = .next { s with code := 0#8
                       buf := addCells s.buf (targetCell s (operand0 s) + 7)
                         (fastTaps (fixedPos s (operand0 s)) (deltaOperand s)) } := by
  rw [execAddDeltaFast, unlessHalted_running hs]
  simp only [if_neg h, finish_withBuf]

theorem execEndFrame_overflow {s : State} (hs : s.fatal = false)
    (h : s.params.capacity < s.avail.toNat + frameSamples s (operand0 s)) :
    execEndFrame s = .next { s with code := 0x06#8, fatal := true } := by
  rw [execEndFrame, unlessHalted_running hs]
  simp only [if_pos h]
  rw [raise_frameOverflow]
  rfl

theorem execEndFrame_fits {s : State} (hs : s.fatal = false)
    (h : ¬ s.params.capacity < s.avail.toNat + frameSamples s (operand0 s)) :
    execEndFrame s
      = .next { s with code := 0#8
                       avail := BitVec.ofNat 32 (s.avail.toNat + frameSamples s (operand0 s))
                       offset := BitVec.ofNat 64 (frameRemainder s (operand0 s)) } := by
  rw [execEndFrame, unlessHalted_running hs]
  simp only [if_neg h, finish_withAvail_withOffset]

theorem execClocksNeeded_outOfRange {s : State} (hs : s.fatal = false)
    (h : s.params.capacity < s.avail.toNat + operand0 s) :
    execClocksNeeded s = .next { s with code := 0x04#8 } := by
  rw [execClocksNeeded, unlessHalted_running hs]
  simp only [if_pos h]
  rw [raise_eq_withCode _ _ rfl]
  rfl

theorem execClocksNeeded_inRange {s : State} (hs : s.fatal = false)
    (h : ¬ s.params.capacity < s.avail.toNat + operand0 s) :
    execClocksNeeded s
      = .next { s with code := 0#8, result := clocksFor s (operand0 s) } := by
  rw [execClocksNeeded, unlessHalted_running hs]
  simp only [if_neg h, finish_withResult]

/-- The three answers of READ_SAMPLES on a CORE that is not halted. -/
theorem execReadSamples_cases (stereo : Bool) {s : State} (hs : s.fatal = false) :
    (readCount s = 0 ∧ execReadSamples stereo s = .next { s with code := 0#8, result := 0#64 }) ∨
    (readCount s ≠ 0 ∧ OutOfRange s.params.out16Len stereo s ∧
      execReadSamples stereo s = .next { s with code := 0x05#8 }) ∨
    (readCount s ≠ 0 ∧ ¬ OutOfRange s.params.out16Len stereo s ∧
      execReadSamples stereo s
        = .next { s with
            code := 0#8
            integrator := (readRun s).2
            buf := shiftCells s.buf (readCount s) (shiftSpan s.params s.avail.toNat)
            avail := BitVec.ofNat 32 (s.avail.toNat - readCount s)
            result := BitVec.ofNat 64 (readCount s)
            out16 := writeRun s.out16 (operand1 s) (outStep stereo) ((readRun s).1.map pcm16) }) := by
  rw [execReadSamples, unlessHalted_running hs]
  rcases extract_cases s.params.out16Len (writeSamples16 stereo) stereo s with h | h | h
  · exact .inl ⟨h.1, by simp only [h.2, State.withResult, State.withCode]⟩
  · exact .inr (.inl ⟨h.1, h.2.1, by simp only [h.2.2, State.withCode]⟩)
  · refine .inr (.inr ⟨h.1, Nat.not_le.mpr h.2.1, ?_⟩)
    rw [h.2.2]
    simp only [writeSamples16, drainState, operand1, State.withOut16, State.withResult,
      State.withAvail, State.withBuf, State.withIntegrator, State.withCode]

/-- The three answers of READ_FLOAT_SAMPLES on a CORE that is not halted. -/
theorem execReadFloatSamples_cases (stereo : Bool) {s : State} (hs : s.fatal = false) :
    (readCount s = 0 ∧
      execReadFloatSamples stereo s = .next { s with code := 0#8, result := 0#64 }) ∨
    (readCount s ≠ 0 ∧ OutOfRange s.params.outFLen stereo s ∧
      execReadFloatSamples stereo s = .next { s with code := 0x05#8 }) ∨
    (readCount s ≠ 0 ∧ ¬ OutOfRange s.params.outFLen stereo s ∧
      execReadFloatSamples stereo s
        = .next { s with
            code := 0#8
            integrator := (readRun s).2
            buf := shiftCells s.buf (readCount s) (shiftSpan s.params s.avail.toNat)
            avail := BitVec.ofNat 32 (s.avail.toNat - readCount s)
            result := BitVec.ofNat 64 (readCount s)
            outF := writeRun s.outF (operand1 s) (outStep stereo) ((readRun s).1.map float32) }) := by
  rw [execReadFloatSamples, unlessHalted_running hs]
  rcases extract_cases s.params.outFLen (writeSamplesF stereo) stereo s with h | h | h
  · exact .inl ⟨h.1, by simp only [h.2, State.withResult, State.withCode]⟩
  · exact .inr (.inl ⟨h.1, h.2.1, by simp only [h.2.2, State.withCode]⟩)
  · refine .inr (.inr ⟨h.1, Nat.not_le.mpr h.2.1, ?_⟩)
    rw [h.2.2]
    simp only [writeSamplesF, drainState, operand1, State.withOutF, State.withResult,
      State.withAvail, State.withBuf, State.withIntegrator, State.withCode]

end Sys2Proof.Machine
end

