-- ==== Sys2Proof/Laws/PerInstr.lean ====
section
/-! SUPPORT. A statement about every instruction as syntax, one lemma per constructor: its command
word has RSV = 0, an OP of the opcode map, and S = 1 only on a read (spec/30_encoding.md R70, R72). -/

namespace Sys2Proof.Laws.EncodedFields

/-- The fields of an instruction's command word are those of its row (30_encoding.md R70, R72). -/
def Statement (i : Instr) : Prop :=
  reservedField (encode i) = 0 ∧ 1 ≤ (opField (encode i)).toNat ∧ (opField (encode i)).toNat ≤ 8 ∧
    (stereoField (encode i) = true → 7 ≤ (opField (encode i)).toNat)

theorem clear : Statement .clear := by unfold Statement; decide

theorem setRates : Statement .setRates := by unfold Statement; decide

theorem addDelta : Statement .addDelta := by unfold Statement; decide

theorem addDeltaFast : Statement .addDeltaFast := by unfold Statement; decide

theorem endFrame : Statement .endFrame := by unfold Statement; decide

theorem clocksNeeded : Statement .clocksNeeded := by unfold Statement; decide

theorem readSamples (stereo : Bool) : Statement (.readSamples stereo) := by
  unfold Statement; revert stereo; decide

theorem readFloatSamples (stereo : Bool) : Statement (.readFloatSamples stereo) := by
  unfold Statement; revert stereo; decide

end Sys2Proof.Laws.EncodedFields
end

