-- ==== Sys2Proof/Tests/Slice0.lean ====
section
/-! SUPPORT. The model's own tests: decoding of words written out from spec/30_encoding.md, the checks
of WellFormed, one or two vectors of spec/95_test_vectors.md per instruction, and for every statement
with hypotheses a state and operands that meet them. -/

namespace Sys2Proof.Tests

open Sys2Proof.Machine

/-! ### Helpers -/

/-- `Core(cap)` of 95_test_vectors.md with the given output lengths. -/
def coreOf (cap len16 lenF : Nat) : State :=
  State.resetWith { Config.Params.default with capacity := cap, out16Len := len16, outFLen := lenF }

/-- A CORE of 16 samples at reset. -/
def tiny : State := coreOf 16 64 64

/-- A CORE with CAPACITY = cap, FACTOR = 2^52 (SET_RATES 48000, 48000) and the given OFFSET. -/
def unitCore (cap : Nat) (offset : DWord) : State :=
  ((coreOf cap 64 64).withFactor 0x10000000000000#64).withOffset offset

/-- A CORE of 64 samples with 10 samples available and one cell of BUF. -/
def loaded (cell : Word) : State :=
  ((unitCore 64 0x80000000#64).withAvail 10#32).withBuf [(7, cell)]

/-- tiny, halted. -/
def halted : State := (tiny.withFatal true).withCode 0x06#8

/-- tiny with one host access pending. -/
def pending (a : HostAction) : State := tiny.withScript [a]

/-- The next state, if the outcome is one. -/
def nextOf : Host.Outcome State Fault Refusal → Option State
  | .next t => some t
  | .fault _ => none
  | .refused _ => none

/-- What a command leaves, seen through a view of the next state. -/
def after {α : Type} (view : State → α) (i : Instr) (s : State) : Option α :=
  (nextOf (exec i s)).map view

/-! ### Decoding: words written out bit by bit (30_encoding.md R70, R72) -/

theorem test_decode_clear : decode 0b00000000000000000000000000000001#32 = .ok .clear := rfl

theorem test_decode_setRates : decode 0b00000000000000000000000000000010#32 = .ok .setRates := rfl

theorem test_decode_addDelta : decode 0b00000000000000000000000000000011#32 = .ok .addDelta := rfl

theorem test_decode_addDeltaFast :
    decode 0b00000000000000000000000000000100#32 = .ok .addDeltaFast := rfl

theorem test_decode_endFrame : decode 0b00000000000000000000000000000101#32 = .ok .endFrame := rfl

theorem test_decode_clocksNeeded :
    decode 0b00000000000000000000000000000110#32 = .ok .clocksNeeded := rfl

theorem test_decode_readSamples :
    decode 0b00000000000000000000000000000111#32 = .ok (.readSamples false) ∧
    decode 0b00000000000000000000000000010111#32 = .ok (.readSamples true) := ⟨rfl, rfl⟩

theorem test_decode_readFloatSamples :
    decode 0b00000000000000000000000000001000#32 = .ok (.readFloatSamples false) ∧
    decode 0b00000000000000000000000000011000#32 = .ok (.readFloatSamples true) := ⟨rfl, rfl⟩

/-- The illegal words of 95_test_vectors.md. -/
theorem test_decode_illegal :
    decode 0x00000000#32 = .error .unknownOp ∧ decode 0x00000009#32 = .error .unknownOp ∧
    decode 0x0000000F#32 = .error .unknownOp ∧ decode 0x00000011#32 = .error .stereoNotAllowed ∧
    decode 0x00000014#32 = .error .stereoNotAllowed ∧ decode 0x00000027#32 = .error .reservedBits ∧
    decode 0x80000001#32 = .error .reservedBits := ⟨rfl, rfl, rfl, rfl, rfl, rfl, rfl⟩

theorem test_decodeTableWord :
    decodeTableWord 32 0x17 = some (.readSamples true) ∧ decodeTableWord 32 0x27 = none :=
  ⟨rfl, rfl⟩

/-! ### WellFormed: one ill-formed value for each check (00_scope.md R8) -/

theorem test_default_parameters_legal : Config.Params.default.Legal := by decide

theorem test_illegal_capacities :
    ¬ ({ Config.Params.default with capacity := 0 }).CapacityLegal ∧
    ¬ ({ Config.Params.default with capacity := 2147483630 }).CapacityLegal ∧
    ({ Config.Params.default with capacity := 2147483629 }).CapacityLegal := by decide

theorem test_illegal_lengths :
    ¬ ({ Config.Params.default with out16Len := 4294967297 }).OutLengthsLegal ∧
    ¬ ({ Config.Params.default with outFLen := 4294967297 }).OutLengthsLegal := by decide

theorem test_illegal_regBase : ¬ ({ Config.Params.default with regBase := 16 }).RegBaseLegal := by
  decide

theorem test_illegal_kernel :
    ¬ ({ Config.Params.default with
          kernel := Vector.replicate 33 (Vector.replicate 8 0#16) }).KernelLegal := by decide

/-! ### Vectors of 95_test_vectors.md, one step each -/

/-- V-S1, V-S7, V-S11, V-S13. -/
theorem test_setRates :
    after State.factor .setRates (withOperands tiny 1000000#32 48000#32) = some 216172782113784#64 ∧
    after State.factor .setRates (withOperands tiny 1#32 4095#32) = some 0xFFF0000000000000#64 ∧
    after State.factor .setRates (withOperands tiny 4294967295#32 4096#32) = some 0x100000002#64 ∧
    after State.factor .setRates (withOperands tiny 7#32 3#32) = some 0x6DB6DB6DB6DB7#64 := by
  decide

/-- V-A1: the floor rounding of d2. -/
theorem test_addDelta :
    after (fun t => t.buf.map fun e => e.2.toInt) .addDelta
        (withOperands (unitCore 64 0x100000000#64) 0#32 0xFFFFFFFF#32)
      = some [-44, 118, -348, 473, -1076, 799, -5274, -21001, -6464, 1021, -1190, 499, -350, 110,
          -40, -1] := by decide +kernel

/-- V-A5: a delta outside 16 bits wraps cell by cell. -/
theorem test_addDelta_wraps :
    after (fun t => (bufRead t.buf 0).toInt) .addDelta
        (withOperands (unitCore 64 0#64) 0#32 0x7FFFFFFF#32) = some 2147483605 := by decide +kernel

/-- V-F1: half a sample splits the step evenly. -/
theorem test_addDeltaFast :
    after State.buf .addDeltaFast (withOperands (unitCore 64 0x8000000000000#64) 0#32 1000#32)
      = some [(7, 16384000#32), (8, 16384000#32)] := by decide

/-- V-E1. -/
theorem test_endFrame :
    after (fun t => (t.avail, t.offset)) .endFrame
        (withOperands ((coreOf 4800 9 0).withFactor 216172782113784#64) 200#32 0#32)
      = some (9#32, 2702161923905984#64) := by decide

/-- V-E3: STATUS = 0x106, AVAIL and OFFSET unchanged. -/
theorem test_endFrame_overflow :
    after (fun t => (readReg t .status, t.avail, t.offset)) .endFrame
        (withOperands (unitCore 16 0x80000000#64) 17#32 0#32)
      = some (0x106#32, 0#32, 0x80000000#64) := by decide

/-- V-C2, V-C4. -/
theorem test_clocksNeeded :
    after State.result .clocksNeeded
        (withOperands ((((coreOf 4800 9 0).withFactor 216172782113784#64).withOffset
          2702161923905984#64).withAvail 9#32) 10#32 0#32) = some 196#64 ∧
    after State.code .clocksNeeded
        (withOperands ((coreOf 4800 9 0).withAvail 9#32) 4792#32 0#32) = some 0x04#8 := by decide

/-- The example of 43_sample_extractor.md R153. -/
theorem test_readSamples :
    after (fun t => (t.out16.map fun e => (e.1, e.2.toInt), t.integrator.toInt, t.buf)) (.readSamples false)
        (withOperands ((loaded 1073709056#32).withAvail 12#32) 12#32 0#32)
      = some ([(0, 0), (1, 0), (2, 0), (3, 0), (4, 0), (5, 0), (6, 0), (7, 32767), (8, 32703),
          (9, 32639), (10, 32575), (11, 32511)], 1063264576, []) := by decide +kernel

/-- V-R2: stereo, clipped to -1.0. -/
theorem test_readFloatSamples :
    after (fun t => (t.outF, t.integrator.toInt)) (.readFloatSamples true)
        (withOperands (loaded (BitVec.ofInt 32 (-1966080000))) 10#32 0#32)
      = some ([(0, 0#32), (2, 0#32), (4, 0#32), (6, 0#32), (8, 0#32), (10, 0#32), (12, 0#32),
          (14, 0xBF800000#32), (16, 0xBF800000#32), (18, 0xBF800000#32)], -1959788544) := by
  decide +kernel

/-- The patterns of 43_sample_extractor.md R155, R156. -/
theorem test_float32 :
    float32 0 = 0#32 ∧ float32 1 = 0x38000000#32 ∧ float32 (-1) = 0xB8000000#32 ∧
    float32 32767 = 0x3F7FFE00#32 ∧ float32 (-32768) = 0xBF800000#32 ∧
    float32 (-2712) = 0xBDA98000#32 ∧ float32 16384 = 0x3F000000#32 := by decide +kernel

/-- V-K1, V-K2. -/
theorem test_clear :
    after State.offset .clear (tiny.withFactor 216172782113784#64) = some 108086391056892#64 ∧
    after State.offset .clear (tiny.withFactor 0x20000000000000#64) = some 0x8000000000000#64 := by
  decide

/-- From reset, a placed word is the first instruction to run. -/
theorem test_placed_word_runs :
    (nextOf (step (State.reset.withFetchWord 32 0x6))).map (fun t => (t.code, t.script))
      = some (0#8, []) := by decide

/-! ### Witnesses: every statement's hypotheses are met -/

/-- OpcodeMapIsTheTable: a word of the map, a word outside it, a running and a halted CORE. -/
theorem test_witness_opcode_map :
    decode 0x00000018#32 = .ok (.readFloatSamples true) ∧ (∀ i, decode 0x00000009#32 ≠ .ok i) ∧
    tiny.fatal = false ∧ halted.fatal = true := by
  refine ⟨rfl, fun i h => ?_, rfl, rfl⟩
  have : decode 0x00000009#32 = .error .unknownOp := rfl
  rw [this] at h
  cases h

/-- DecodeInvertsEncode, EncodedBytesDecode. -/
theorem test_witness_wellFormed :
    (Instr.readSamples true).WellFormed ∧ Instr.clear.WellFormed := ⟨trivial, trivial⟩

/-- IllegalWordOnlySetsCode: each clause at a boundary, on a running CORE. -/
theorem test_witness_illegal_word :
    tiny.fatal = false ∧ (0x00000010#32 : Word).toNat % 16 = 0 ∧
    9 ≤ (0x00000009#32 : Word).toNat % 16 ∧ 9 ≤ (0x0000000F#32 : Word).toNat % 16 ∧
    ((0x00000016#32 : Word).toNat / 16 % 2 = 1 ∧ (0x00000016#32 : Word).toNat % 16 ≠ 7 ∧
      (0x00000016#32 : Word).toNat % 16 ≠ 8) ∧
    (0x00000027#32 : Word).toNat / 32 ≠ 0 ∧ (0x80000001#32 : Word).toNat / 32 ≠ 0 := by decide

/-- CommandWritePerformsOneCommand: a legal word, an illegal one, and a read of CMD. -/
theorem test_witness_command_write :
    (pending (.store 0 32 0x1#32)).script = [.store (tiny.params.regBase + 0x00) 32 0x1#32] ∧
    decode 0x1#32 = .ok .clear ∧
    (pending (.store 0 32 0x0#32)).script = [.store (tiny.params.regBase + 0x00) 32 0x0#32] ∧
    decode 0x0#32 = .error .unknownOp ∧
    (pending (.load 0 32)).script = [.load (tiny.params.regBase + 0x00) 32] :=
  ⟨rfl, rfl, rfl, rfl, rfl⟩

/-- PlacedWordRunsNext. -/
theorem test_witness_placed_word : decodeTableWord 32 0x8 = some (.readFloatSamples false) := rfl

/-- IdleStepHoldsTheState. -/
theorem test_witness_idle : tiny.script = [] := rfl

/-- ClearReturnsToInitialPhase, with FACTOR / 2 at 2^51 and above it. -/
theorem test_witness_clear :
    (unitCore 16 0#64).fatal = false ∧ (unitCore 16 0#64).factor.toNat / 2 ≤ 2 ^ 51 ∧
    ¬ (tiny.withFactor 0x10000000000002#64).factor.toNat / 2 ≤ 2 ^ 51 ∧ halted.fatal = true := by
  decide

/-- SetRatesStoresTheCeiling: each failing clause at its boundary, and the legal sides (V-S5 to
V-S10). -/
theorem test_witness_setRates :
    tiny.fatal = false ∧ (2 ^ 20 * 1 < 1048577) ∧ ¬ (2 ^ 20 * 1 < 1048576) ∧ (4096 * 1 ≤ 4096) ∧
    ¬ (4096 * 1 ≤ 4095) ∧
    after State.code .setRates (withOperands tiny 1048576#32 1#32) = some 0#8 ∧
    after State.code .setRates (withOperands tiny 1048577#32 1#32) = some 0x02#8 ∧
    after State.code .setRates (withOperands tiny 1#32 4096#32) = some 0x02#8 ∧
    after State.code .setRates (withOperands tiny 0#32 1#32) = some 0x02#8 ∧
    after State.code .setRates (withOperands tiny 1#32 0#32) = some 0x02#8 := by decide

/-- SetRatesFactorRange: a success whose quotient is exact (V-S4). -/
theorem test_witness_setRates_exact :
    tiny.fatal = false ∧
    after State.code .setRates (withOperands tiny 48000#32 48000#32) = some 0#8 ∧
    (48000#32 : Word).toNat ∣ 2 ^ 52 * (48000#32 : Word).toNat := by decide

/-- AddDeltaAddsSixteenCells, AddDeltaFastAddsTwoCells: target at CAPACITY + 2 and one beyond (V-A7 to
V-A10). -/
theorem test_witness_injection_range :
    (unitCore 16 0x80000000#64).fatal = false ∧
    targetCell (unitCore 16 0x80000000#64) 18 = 18 ∧
    after State.code .addDelta (withOperands (unitCore 16 0x80000000#64) 18#32 1#32) = some 0#8 ∧
    after State.code .addDelta (withOperands (unitCore 16 0x80000000#64) 19#32 1#32)
      = some 0x03#8 ∧
    after State.buf .addDeltaFast (withOperands (unitCore 16 0x80000000#64) 18#32 1#32)
      = some [(25, 32768#32)] ∧
    after State.code .addDeltaFast (withOperands (unitCore 16 0x80000000#64) 19#32 1#32)
      = some 0x03#8 := by decide +kernel

/-- InjectionsCommute: two injections that succeed, one of each kind, and their exchange. -/
theorem test_witness_injections :
    (injectAll [⟨false, 1#32, 100#32⟩, ⟨true, 2#32, 5#32⟩] (unitCore 16 0#64)).isSome = true ∧
    [(⟨false, 1#32, 100#32⟩ : Injection), ⟨true, 2#32, 5#32⟩].Perm
      [⟨true, 2#32, 5#32⟩, ⟨false, 1#32, 100#32⟩] :=
  ⟨by decide +kernel, List.Perm.swap _ _ _⟩

/-- InjectionTotalIsTheDelta: a legal running CORE and a successful injection of each kind. -/
theorem test_witness_injection_total :
    Legal (withOperands (unitCore 16 0#64) 3#32 7#32) ∧
    (withOperands (unitCore 16 0#64) 3#32 7#32).fatal = false ∧
    after State.code .addDelta (withOperands (unitCore 16 0#64) 3#32 7#32) = some 0#8 ∧
    after State.code .addDeltaFast (withOperands (unitCore 16 0#64) 3#32 7#32) = some 0#8 := by
  decide +kernel

/-- TapsSumExactlyWithoutWrap, at both ends of the delta range. -/
theorem test_witness_taps :
    Config.Params.default.KernelLegal ∧ (-32768 : Int) ≤ -32768 ∧ (32768 : Int) ≤ 32768 := by decide

/-- EndFrameCommitsSamples, FrameCountWrapsAt4096: CAPACITY reached and passed, and a wrap (V-E2, V-E3,
V-E5). -/
theorem test_witness_endFrame :
    (unitCore 16 0x80000000#64).fatal = false ∧
    after (fun t => (t.code, t.avail)) .endFrame
      (withOperands (unitCore 16 0x80000000#64) 16#32 0#32) = some (0#8, 16#32) ∧
    after State.code .endFrame (withOperands (unitCore 16 0x80000000#64) 17#32 0#32)
      = some 0x06#8 ∧
    after (fun t => (t.code, t.avail)) .endFrame
      (withOperands (unitCore 8000 0x80000000#64) 4096#32 0#32) = some (0#8, 0#32) := by decide

/-- FrameCarryIsExact: inject at 5 + 2, end the frame at 5, both succeed on a legal CORE without
wrap, for each kind of injection. -/
theorem test_witness_frame_carry :
    Legal (unitCore 16 0#64) ∧ (5#32 : Word).toNat + (2#32 : Word).toNat < 2 ^ 32 ∧
    ((5#32 : Word).toNat + (2#32 : Word).toNat) * (unitCore 16 0#64).factor.toNat
      + (unitCore 16 0#64).offset.toNat < 2 ^ 64 ∧
    ([Instr.addDelta, Instr.addDeltaFast].all fun j =>
      match nextOf (exec j (withOperands (unitCore 16 0#64) (5#32 + 2#32) 9#32)) with
      | none => false
      | some a => a.code = 0#8 &&
          after State.code .endFrame (withOperands a 5#32 0#32) = some 0#8) = true := by
  decide +kernel

/-- EmptyFrameAddsNothing, ClocksNeededOfZeroIsZero. -/
theorem test_witness_zero_operand :
    Legal tiny ∧ tiny.fatal = false ∧ tiny.arg0 = 0#32 := by decide +kernel

/-- ClocksNeededIsTheCeiling: N at CAPACITY - AVAIL and one beyond, and N x 2^52 below OFFSET and at
least OFFSET. -/
theorem test_witness_clocksNeeded :
    tiny.params.Legal ∧ RegistersLegal tiny ∧ tiny.fatal = false ∧
    after State.code .clocksNeeded (withOperands tiny 16#32 0#32) = some 0#8 ∧
    after State.code .clocksNeeded (withOperands tiny 17#32 0#32) = some 0x04#8 ∧
    (2 ^ 52 * 0 < tiny.offset.toNat) ∧ ¬ (2 ^ 52 * 1 < tiny.offset.toNat) := by decide +kernel

/-- ClocksNeededIsMinimal: V-C6, RESULT = 2^20 with a sum below 2^64. -/
theorem test_witness_minimal :
    Legal (withOperands tiny 1#32 0#32) ∧ tiny.fatal = false ∧
    after (fun t => (t.code, t.result)) .clocksNeeded (withOperands tiny 1#32 0#32)
      = some (0#8, 1048576#64) ∧
    1048576 * tiny.factor.toNat + tiny.offset.toNat < 2 ^ 64 := by decide +kernel

/-- ClocksNeededSizesTheFrame: RESULT = 1 whose frame overflows (FACTOR = 100 x 2^52), RESULT = 5 whose
frame fits, and the frame one clock shorter. -/
theorem test_witness_sized_frame :
    Legal (withOperands (tiny.withFactor 0x640000000000000#64) 1#32 0#32) ∧
    after State.result .clocksNeeded
      (withOperands (tiny.withFactor 0x640000000000000#64) 1#32 0#32) = some 1#64 ∧
    after State.code .endFrame
      (withOperands (tiny.withFactor 0x640000000000000#64) 1#32 0#32) = some 0x06#8 ∧
    Legal (withOperands (unitCore 16 0#64) 5#32 0#32) ∧
    after State.result .clocksNeeded (withOperands (unitCore 16 0#64) 5#32 0#32) = some 5#64 ∧
    after State.avail .endFrame (withOperands (unitCore 16 0#64) 5#32 0#32) = some 5#32 ∧
    after State.avail .endFrame (withOperands (unitCore 16 0#64) 4#32 0#32) = some 4#32 := by
  decide +kernel

/-- ReadSamplesExtracts: nothing to read, and a run at the end of OUT16 and one past it, mono and
stereo (V-R5, V-R6, V-R7). -/
theorem test_witness_readSamples :
    (loaded 0#32).fatal = false ∧ (loaded 0#32).avail.toNat ≤ (loaded 0#32).params.capacity ∧
    after State.result (.readSamples false) (withOperands tiny 5#32 1000#32) = some 0#64 ∧
    after State.result (.readSamples false) (withOperands (loaded 5#32) 10#32 54#32)
      = some 10#64 ∧
    after State.code (.readSamples false) (withOperands (loaded 5#32) 10#32 55#32)
      = some 0x05#8 ∧
    after State.result (.readSamples true) (withOperands (loaded 5#32) 10#32 45#32)
      = some 10#64 ∧
    after State.code (.readSamples true) (withOperands (loaded 5#32) 10#32 46#32)
      = some 0x05#8 := by decide +kernel

/-- ReadFloatSamplesExtracts: the same boundaries against OUTF. -/
theorem test_witness_readFloatSamples :
    after State.result (.readFloatSamples false) (withOperands tiny 5#32 1000#32) = some 0#64 ∧
    after State.result (.readFloatSamples false) (withOperands (loaded 5#32) 10#32 54#32)
      = some 10#64 ∧
    after State.code (.readFloatSamples false) (withOperands (loaded 5#32) 10#32 55#32)
      = some 0x05#8 ∧
    after State.code (.readFloatSamples true) (withOperands (loaded 5#32) 10#32 46#32)
      = some 0x05#8 := by decide +kernel

/-- BothReadsEvolveAlike: both reads succeed on one state. -/
theorem test_witness_both_reads :
    after State.code (.readSamples true) (withOperands (loaded 5#32) 10#32 0#32) = some 0#8 ∧
    after State.code (.readFloatSamples false) (withOperands (loaded 5#32) 10#32 0#32)
      = some 0#8 := by decide +kernel

/-- FloatScalingIsExact, at both ends. -/
theorem test_witness_float :
    (-32768 : Int) ≤ -32768 ∧ (-32768 : Int) ≤ 32767 ∧ (32767 : Int) ≤ 32767 := by decide

/-- ShiftWindowsAgreeOnClosedFrames: a BUF that is empty from AVAIL + 18 on, read under both
windows. -/
theorem test_witness_windows :
    (loaded 5#32).avail.toNat ≤ (loaded 5#32).params.capacity ∧
    (∀ j, (loaded 5#32).avail.toNat + 18 ≤ j → bufRead (loaded 5#32).buf j = 0#32) ∧
    (after State.code (.readSamples false) { withOperands (loaded 5#32) 4#32 0#32 with
        params := { (loaded 5#32).params with shiftWindow := .wholeBuffer } } = some 0#8) := by
  refine ⟨by decide, fun j hj => ?_, by decide +kernel⟩
  have h10 : (loaded 5#32).avail.toNat = 10 := by decide
  have : 7 ≠ j := by omega
  simp [loaded, State.withBuf, bufRead, cellFind, this]

/-- HighPassSettlesTowardZero: a sum at the bound of each clause. -/
theorem test_witness_settling :
    0 ≤ (0#32 : Word).toInt ∧ 2 ^ 15 ≤ (32768#32 : Word).toInt ∧
    ¬ 2 ^ 15 ≤ (32767#32 : Word).toInt := by decide

/-- ClearThenReadReturnsNothing. -/
theorem test_witness_clear_then_read :
    (loaded 5#32).fatal = false ∧ after State.avail .clear (loaded 5#32) = some 0#32 := by decide

/-- ErrorChangesOnlyStatus: an error of a command, the fatal one, and an illegal word. -/
theorem test_witness_errors :
    (nextOf (performCommand 0x2#32 tiny)).map State.code = some 0x02#8 ∧
    (nextOf (performCommand 0x5#32 (withOperands (unitCore 16 0#64) 17#32 0#32))).map
      (fun t => (t.code, t.fatal)) = some (0x06#8, true) ∧
    (nextOf (performCommand 0x0#32 tiny)).map State.code = some 0x01#8 := by decide

/-- EveryCommandEndsInItsCodes. -/
theorem test_witness_running : tiny.fatal = false := rfl

/-- HaltedUntilReset: each access on a halted CORE (V-K5). -/
theorem test_witness_halted :
    halted.fatal = true ∧
    (halted.withScript [.store 4 32 7#32]).script
      = [.store (halted.params.regBase + 0x04) 32 7#32] ∧
    (halted.withScript [.store 8 32 7#32]).script
      = [.store (halted.params.regBase + 0x08) 32 7#32] ∧
    (nextOf (step (halted.withScript [.load 12 32]))).map State.reads = some [0x106#32] ∧
    (nextOf (step (halted.withScript [.assertReset]))).map State.fatal = some false := by decide

/-- OnlyTheListedCommandsWrite: a command that answers a next state. -/
theorem test_witness_next : (nextOf (exec .clear tiny)).isSome = true := by decide

/-- AudioStateIsHiddenFromOtherCommands: a command that is no read answers a next state. -/
theorem test_witness_not_a_read :
    (∀ st, Instr.endFrame ≠ .readSamples st ∧ Instr.endFrame ≠ .readFloatSamples st) ∧
    (nextOf (exec .endFrame tiny)).isSome = true := by decide

/-- HiddenStateIsNotReadable: a load of AVAIL answers a next state. -/
theorem test_witness_hidden :
    (∀ addr v, HostAction.load 0x18 32 = .store addr 32 v → addr ≠ tiny.params.regBase) ∧
    HostAction.load 0x18 32 ≠ .assertReset ∧
    (nextOf (performAction (.load 0x18 32) tiny)).isSome = true :=
  ⟨fun _ _ h => (by cases h), by decide, by decide⟩

/-- RegisterReadsReturn: every register, the reserved offset and the first one beyond the window. -/
theorem test_witness_register_reads :
    ([0x00, 0x04, 0x08, 0x0C, 0x10, 0x14, 0x18, 0x1C, 0x20].map fun off =>
      (nextOf (step ((((withOperands halted 1#32 2#32).withResult 0x400000003#64).withAvail
        5#32).withScript [.load off 32]))).map State.reads)
      = [some [0#32], some [1#32], some [2#32], some [0x106#32], some [3#32], some [4#32],
          some [5#32], some [0#32], some [0#32]] := by decide

/-- RegisterWritesSet: CMD, both operand registers, each read-only register, the reserved offset and
the first one beyond the window. -/
theorem test_witness_register_writes :
    ([0x00, 0x04, 0x08, 0x0C, 0x18, 0x1C, 0x20].map fun off =>
      (nextOf (step (pending (.store off 32 9#32)))).map fun t => (t.arg0, t.arg1, t.code))
      = [some (0#32, 0#32, 0x01#8), some (9#32, 0#32, 0#8), some (0#32, 9#32, 0#8),
          some (0#32, 0#32, 0#8), some (0#32, 0#32, 0#8), some (0#32, 0#32, 0#8),
          some (0#32, 0#32, 0#8)] := by decide

/-- NarrowOrMisalignedAccessIsInert: a narrow and a misaligned access of each kind. -/
theorem test_witness_narrow :
    (8 ≠ 32 ∨ 4 % 4 ≠ 0) ∧ (32 ≠ 32 ∨ 6 % 4 ≠ 0) ∧
    (pending (.store 4 8 9#32)).script = [.store (tiny.params.regBase + 4) 8 9#32] ∧
    (pending (.load 6 32)).script = [.load (tiny.params.regBase + 6) 32] := by decide

/-- OutputElementReadsBack: the last element of each memory, written by the host and by a read
command (sample 7 of the example of R153, and its pattern of R155). -/
theorem test_witness_output_element :
    63 < tiny.params.out16Len ∧ 63 < tiny.params.outFLen ∧
    (tiny.withScript [.writeOut16 63 9#16, .readOut16 63]).script
      = [.writeOut16 63 9#16, .readOut16 63] ∧
    (tiny.withScript [.writeOutF 63 9#32, .readOutF 63]).script
      = [.writeOutF 63 9#32, .readOutF 63] ∧
    after (fun t => cellFind t.out16 63) (.readSamples false)
      (withOperands (loaded 1073709056#32) 8#32 56#32) = some (some 32767#16) ∧
    after (fun t => cellFind t.outF 63) (.readFloatSamples false)
      (withOperands (loaded 1073709056#32) 8#32 56#32) = some (some 0x3F7FFE00#32) := by
  decide +kernel

/-- StatementRunsItsCommand. -/
theorem test_witness_statement :
    (tiny.withScript (expand tiny.params (.addDelta 30#32 0xFFFFEC78#32))).script
      = commandStores tiny.params 30#32 0xFFFFEC78#32 .addDelta ++ [] := by decide

/-- CheckStopsOnError: with CODE = 0 and with an error. -/
theorem test_witness_check :
    (nextOf (step (tiny.withScript [.check, .check]))).map State.script = some [.check] ∧
    (nextOf (step ((tiny.withCode 0x02#8).withScript [.check, .check]))).map State.script
      = some [] := by decide

/-- ResetSetsTheStatedValues. -/
theorem test_witness_reset :
    (pending .assertReset).script = [.assertReset] := rfl

/-- ResetStateIsLegal, StepKeepsLegal, LegalMachineIsSafe: a legal state with an access that exists,
whose step answers a next state. -/
theorem test_witness_legal :
    Config.Params.default.Legal ∧ Legal (pending (.store 0 32 0x1#32)) ∧
    (∀ a ∈ (pending (.store 0 32 0x1#32)).script.head?, AccessExists tiny.params a) ∧
    (nextOf (step (pending (.store 0 32 0x1#32)))).isSome = true := by
  refine ⟨by decide, by decide +kernel, ?_, by decide⟩
  intro a ha
  cases ha
  exact Nat.le_refl 0

/-- OnlyAbsentAccessesFault: an access that does not exist and one that does. -/
theorem test_witness_absent :
    (pending (.readOut16 64)).script = [.readOut16 64] ∧ ¬ AccessExists tiny.params (.readOut16 64) ∧
    AccessExists tiny.params (.readOut16 63) := by
  refine ⟨rfl, ?_, ?_⟩ <;> simp only [AccessExists] <;> decide

/-- ConstructionNeedsLegalCapacity: the bounds of CAPACITY. -/
theorem test_witness_construct :
    Config.Params.default.OutLengthsLegal ∧ Config.Params.default.RegBaseLegal ∧
    Config.Params.default.KernelLegal ∧
    (construct { Config.Params.default with capacity := 1 }).isSome = true ∧
    (construct { Config.Params.default with capacity := 2147483629 }).isSome = true ∧
    (construct { Config.Params.default with capacity := 0 }).isSome = false ∧
    (construct { Config.Params.default with capacity := 2147483630 }).isSome = false := by
  decide +kernel

/-- ConstructWithRatesKeepsResetOffset. -/
theorem test_witness_construct_rates :
    (constructWithRates Config.Params.default 1000000#32 48000#32).isSome = true := by decide +kernel

end Sys2Proof.Tests
end

section
/-! PROOFS. The host's accesses to the registers (spec/20_memory.md R52, R62, spec/44_control.md R166,
R167): what a step with an access pending performs, and what a store or a load of a register reaches. -/

namespace Sys2Proof.Machine

/-- The next access of the host is performed on the state from which it has been taken (R62). -/
theorem step_cons {s : State} {a : HostAction} {rest : List HostAction} (h : s.script = a :: rest) :
    step s = performAction a (s.withScript rest) := by
  simp only [step, hostStep, h]

/-! ### Aligned 32-bit accesses -/

@[simp] theorem regAccess_regOffset (r : Reg) : regAccess (regOffset r) 32 = some r := by
  cases r <;> rfl

@[simp] theorem hostStore_register (s : State) (r : Reg) (v : Word) :
    hostStore s (s.params.regBase + regOffset r) 32 v = writeReg s r v := by
  simp [hostStore]

@[simp] theorem hostLoad_register (s : State) (r : Reg) :
    hostLoad s (s.params.regBase + regOffset r) 32 = .next (returnValue s (readReg s r)) := by
  simp [hostLoad]

theorem step_store_register {s : State} {r : Reg} {v : Word} {rest : List HostAction}
    (h : s.script = .store (s.params.regBase + regOffset r) 32 v :: rest) :
    step s = writeReg (s.withScript rest) r v :=
  (step_cons h).trans (hostStore_register (s.withScript rest) r v)

theorem step_load_register {s : State} {r : Reg} {rest : List HostAction}
    (h : s.script = .load (s.params.regBase + regOffset r) 32 :: rest) :
    step s = .next (returnValue (s.withScript rest) (readReg (s.withScript rest) r)) :=
  (step_cons h).trans (hostLoad_register (s.withScript rest) r)

/-! ### The word written to CMD -/

theorem performCommand_of_decode_ok {w : Word} {i : Instr} (h : decode w = .ok i) (s : State) :
    performCommand w s = exec i s := by
  simp only [performCommand, h]

theorem performCommand_of_illegal {w : Word} (h : ∀ i, decode w ≠ .ok i) (s : State) :
    performCommand w s = execIllegal s := by
  cases hw : decode w with
  | ok i => exact absurd hw (h i)
  | error r => simp only [performCommand, hw]

/-- An illegal word sets CODE alone, and the FATAL latch decides to what (60_exceptions.md R172,
R173). -/
theorem execIllegal_eq (s : State) :
    execIllegal s = .next { s with code := if s.fatal then 0x07#8 else 0x01#8 } := by
  by_cases hf : s.fatal = true
  · rw [if_pos hf]
    exact unlessHalted_halted hf _
  · rw [if_neg hf]
    exact execIllegal_running (Bool.eq_false_of_not_eq_true hf)

/-- Settles O6: a store to CMD reaches `performCommand` with the access already taken from the script,
and a load of CMD returns the 0 that `readReg` gives for it. -/
theorem commandWritePerformsOneCommand : Obligations.CommandWritePerformsOneCommand := by
  refine ⟨fun s w i rest hs hw => ?legal, fun s w rest hs hw => ?illegal, fun s rest hs => ?load⟩
  case legal =>
    exact (step_store_register (r := .cmd) hs).trans (performCommand_of_decode_ok hw _)
  case illegal =>
    calc step s
      _ = performCommand w (s.withScript rest) := step_store_register (r := .cmd) hs
      _ = execIllegal (s.withScript rest) := performCommand_of_illegal hw _
      _ = _ := execIllegal_eq _
  case load =>
    exact step_load_register (r := .cmd) hs

end Sys2Proof.Machine
end

section
/-! PROOFS. Narrow, wide and misaligned accesses (spec/20_memory.md R51): they reach no register. -/

namespace Sys2Proof.Machine

theorem regAccess_eq_none {off width : Nat} (h : width ≠ 32 ∨ off % 4 ≠ 0) :
    regAccess off width = none :=
  if_neg fun ⟨hwidth, halign⟩ => h.elim (· hwidth) (· halign)

theorem hostStore_of_no_register (s : State) {off width : Nat} (v : Word)
    (h : regAccess off width = none) :
    hostStore s (s.params.regBase + off) width v = .next s := by
  simp [hostStore, h]

theorem hostLoad_of_no_register (s : State) {off width : Nat} (h : regAccess off width = none) :
    hostLoad s (s.params.regBase + off) width = .next (returnValue s 0#32) := by
  simp [hostLoad, h]

/-- Settles O40: such an access reaches no register, so a store leaves the state the taken access
left, and a load records the 0 of R51 alone. -/
theorem narrowOrMisalignedAccessIsInert : Obligations.NarrowOrMisalignedAccessIsInert := by
  intro s off width v rest hinert
  have hnone : regAccess off width = none := regAccess_eq_none hinert
  refine ⟨fun hstore => ?store, fun hload => ?load⟩
  case store =>
    exact (step_cons hstore).trans (hostStore_of_no_register (s.withScript rest) v hnone)
  case load =>
    exact (step_cons hload).trans (hostLoad_of_no_register (s.withScript rest) hnone)

end Sys2Proof.Machine
end

section
/-! PROOFS. The opcode map (spec/30_encoding.md R70, R72, R74): a word decodes to an instruction
exactly when it is its encoding, and what a word written to CMD performs. -/

namespace Sys2Proof

/-! ### The fields of a word as numbers (R70) -/

theorem opField_toNat (w : Word) : (opField w).toNat = w.toNat % 16 := by
  simp [opField]

theorem stereoField_toNat (w : Word) : (stereoField w).toNat = w.toNat / 16 % 2 :=
  Nat.toNat_testBit w.toNat 4

theorem reservedField_eq_zero_iff (w : Word) : reservedField w = 0 ↔ w.toNat / 32 = 0 := by
  have hw : w.toNat < 2 ^ 32 := w.isLt
  have hfield : (reservedField w).toNat = w.toNat / 32 % 2 ^ 27 := by
    simp [reservedField, Nat.shiftRight_eq_div_pow]
  have hzero : reservedField w = 0 ↔ (reservedField w).toNat = 0 := BitVec.toNat_inj.symm
  rw [hzero, hfield]
  omega

/-! ### The words of the map (R72) -/

theorem decode_eq_decodeOp {w : Word} (h : reservedField w = 0) :
    decode w = decodeOp (opField w) (stereoField w) := if_pos h

theorem reservedField_of_decode_ok {w : Word} {i : Instr} (h : decode w = .ok i) :
    reservedField w = 0 := by
  by_contra hrsv
  rw [decode, if_neg hrsv] at h
  cases h

theorem monoOnly_eq_ok {stereo : Bool} {i j : Instr} (h : monoOnly stereo i = .ok j) :
    stereo = false ∧ i = j := by
  cases stereo with
  | false => exact ⟨rfl, Except.ok.inj h⟩
  | true => cases h

/-- A row of the map answers the command of which S and OP are the encoding. -/
theorem encode_toNat_of_decodeOp {op : BitVec 4} {stereo : Bool} {i : Instr}
    (h : decodeOp op stereo = .ok i) : (encode i).toNat = 16 * stereo.toNat + op.toNat := by
  unfold decodeOp at h
  split at h
  case h_1 hop | h_2 hop | h_3 hop | h_4 hop | h_5 hop | h_6 hop =>
    obtain ⟨rfl, rfl⟩ := monoOnly_eq_ok h
    rw [hop]
    rfl
  case h_7 hop | h_8 hop =>
    cases h
    rw [hop]
    cases stereo <;> rfl
  case h_9 => cases h

@[simp] theorem decode_encode (i : Instr) : decode (encode i) = .ok i := by
  cases i with
  | readSamples stereo => cases stereo <;> rfl
  | readFloatSamples stereo => cases stereo <;> rfl
  | _ => rfl

theorem encode_of_decode_ok {w : Word} {i : Instr} (h : decode w = .ok i) : encode i = w := by
  have hrsv : reservedField w = 0 := reservedField_of_decode_ok h
  have hrow : (encode i).toNat = 16 * (stereoField w).toNat + (opField w).toNat :=
    encode_toNat_of_decodeOp ((decode_eq_decodeOp hrsv).symm.trans h)
  rw [stereoField_toNat, opField_toNat] at hrow
  rw [reservedField_eq_zero_iff] at hrsv
  apply BitVec.eq_of_toNat_eq
  omega

theorem decode_eq_ok_iff {w : Word} {i : Instr} : decode w = .ok i ↔ encode i = w :=
  ⟨encode_of_decode_ok, fun h => h ▸ decode_encode i⟩

/-- The same with the words as numbers, in the spelling of the opcode map. -/
theorem decode_eq_ok_iff_toNat (w : Word) (i : Instr) :
    decode w = .ok i ↔ w.toNat = (encode i).toNat := by
  rw [decode_eq_ok_iff, eq_comm, BitVec.toNat_inj]

/-! ### The illegal words (R74) -/

theorem encodedFields (i : Instr) : Laws.EncodedFields.Statement i := by
  cases i with
  | clear => exact Laws.EncodedFields.clear
  | setRates => exact Laws.EncodedFields.setRates
  | addDelta => exact Laws.EncodedFields.addDelta
  | addDeltaFast => exact Laws.EncodedFields.addDeltaFast
  | endFrame => exact Laws.EncodedFields.endFrame
  | clocksNeeded => exact Laws.EncodedFields.clocksNeeded
  | readSamples stereo => exact Laws.EncodedFields.readSamples stereo
  | readFloatSamples stereo => exact Laws.EncodedFields.readFloatSamples stereo

/-- A word that decodes has RSV = 0, an OP of the map, and S = 1 only with a read. -/
theorem fields_of_decode_ok {w : Word} {i : Instr} (h : decode w = .ok i) :
    w.toNat / 32 = 0 ∧ 1 ≤ w.toNat % 16 ∧ w.toNat % 16 ≤ 8 ∧
      (w.toNat / 16 % 2 = 1 → 7 ≤ w.toNat % 16) := by
  have hfields : Laws.EncodedFields.Statement i := encodedFields i
  rwa [Laws.EncodedFields.Statement, encode_of_decode_ok h, reservedField_eq_zero_iff,
    opField_toNat, ← Bool.toNat_eq_one, stereoField_toNat] at hfields

namespace Machine

/-! ### What a word written to CMD performs (60_exceptions.md R172, R173) -/

theorem performCommand_of_illegal_running {w : Word} {s : State} (hw : ∀ i, decode w ≠ .ok i)
    (hs : s.fatal = false) : performCommand w s = .next { s with code := 0x01#8 } :=
  (performCommand_of_illegal hw s).trans (execIllegal_running hs)

/-- Every command starts with the halted check (R173, R176). -/
theorem exec_halted (i : Instr) {s : State} (hs : s.fatal = true) :
    exec i s = .next { s with code := 0x07#8 } := by
  cases i <;>
    simp only [exec, execClear, execSetRates, execAddDelta, execAddDeltaFast, execEndFrame,
      execClocksNeeded, execReadSamples, execReadFloatSamples, unlessHalted_halted hs]

theorem performCommand_halted (w : Word) {s : State} (hs : s.fatal = true) :
    performCommand w s = .next { s with code := 0x07#8 } := by
  cases hw : decode w with
  | ok i => exact (performCommand_of_decode_ok hw s).trans (exec_halted i hs)
  | error r =>
    have hillegal : ∀ i, decode w ≠ .ok i := by simp [hw]
    exact (performCommand_of_illegal hillegal s).trans (unlessHalted_halted hs _)

/-- Settles O1: each row says that the word is the encoding of the row's command; a word that is no
encoding reaches `execIllegal`, and the halted check stands before every command. -/
theorem opcodeMapIsTheTable : Obligations.OpcodeMapIsTheTable := by
  refine ⟨fun w => ?rows, fun w i s hw => ?legal, fun w s hw hs => ?illegal, fun w s hs => ?halted⟩
  case rows =>
    have row := decode_eq_ok_iff_toNat w
    exact ⟨row .clear, row .setRates, row .addDelta, row .addDeltaFast, row .endFrame,
      row .clocksNeeded, row (.readSamples false), row (.readSamples true),
      row (.readFloatSamples false), row (.readFloatSamples true)⟩
  case legal => exact performCommand_of_decode_ok hw s
  case illegal => exact performCommand_of_illegal_running hw hs
  case halted => exact performCommand_halted w hs

/-- Settles O5: the fields of R74 are those of no word that decodes, so the word is illegal. -/
theorem illegalWordOnlySetsCode : Obligations.IllegalWordOnlySetsCode := by
  intro w s hs hfields
  have hillegal : ∀ i, decode w ≠ .ok i := by
    intro i hw
    obtain ⟨hrsv, hopPos, hopLe, hstereo⟩ := fields_of_decode_ok hw
    omega
  exact performCommand_of_illegal_running hillegal hs

end Machine
end Sys2Proof
end

section
/-! PROOFS. The rate converter (spec/40_rate_converter.md R90): when SET_RATES fails, and the factor
it stores otherwise. -/

namespace Sys2Proof.Machine

theorem rateFactor_le_iff {cr sr q : Nat} (hcr : 0 < cr) :
    rateFactor cr sr ≤ q ↔ 2 ^ 52 * sr ≤ q * cr :=
  ceilDiv_le_iff hcr

/-- The width check of R90 in terms of the rates. Rounding up could carry a quotient just below 2^64
over 2^64 - 1; with a clock rate of at most 2^52 a quotient below 2^64 is at most 2^64 - 1. -/
theorem rateFactor_overflows_iff {cr sr : Nat} (hpos : 0 < cr) (hcr : cr ≤ 2 ^ 52) :
    2 ^ 64 - 1 < rateFactor cr sr ↔ 4096 * cr ≤ sr := by
  rw [← Nat.not_le, rateFactor_le_iff hpos]
  omega

/-- The checks of R90 over two 32-bit rates. -/
theorem ratesRejected_iff (cr sr : Word) :
    RatesRejected cr.toNat sr.toNat ↔
      cr.toNat = 0 ∨ sr.toNat = 0 ∨ 2 ^ 20 * sr.toNat < cr.toNat ∨ 4096 * cr.toNat ≤ sr.toNat := by
  rcases Nat.eq_zero_or_pos cr.toNat with hzero | hpos
  · exact iff_of_true (.inl hzero) (.inl hzero)
  · have hcr : cr.toNat ≤ 2 ^ 52 := by have := cr.isLt; omega
    rw [RatesRejected, rateFactor_overflows_iff hpos hcr, Config.maxRatio]

/-- An accepted pair of rates has a factor that FACTOR holds. -/
theorem toNat_rateFactor_of_accepted {cr sr : Nat} (h : ¬ RatesRejected cr sr) :
    (BitVec.ofNat 64 (rateFactor cr sr)).toNat = rateFactor cr sr := by
  have hfits : ¬ 2 ^ 64 - 1 < rateFactor cr sr := fun hwide => h (.inr (.inr (.inr hwide)))
  exact (BitVec.toNat_ofNat _ 64).trans (Nat.mod_eq_of_lt (by omega))

/-- Settles O10: the failing checks are `RatesRejected` of the operands; otherwise FACTOR holds the
ceiling unreduced, and `rateFactor_le_iff` says that the ceiling is the least such factor. -/
theorem setRatesStoresTheCeiling : Obligations.SetRatesStoresTheCeiling := by
  refine ⟨rfl, fun s hs => ?_⟩
  have hchecks := ratesRejected_iff s.arg0 s.arg1
  dsimp only
  split
  case isTrue hbad => exact execSetRates_rejected hs (hchecks.mpr hbad)
  case isFalse hgood =>
    have haccepted : ¬ RatesRejected s.arg0.toNat s.arg1.toNat := mt hchecks.mp hgood
    have hpos : 0 < s.arg0.toNat := Nat.pos_of_ne_zero fun h => hgood (.inl h)
    refine ⟨BitVec.ofNat 64 (rateFactor s.arg0.toNat s.arg1.toNat),
      execSetRates_accepted hs haccepted, ?_⟩
    rw [toNat_rateFactor_of_accepted haccepted]
    exact ⟨(rateFactor_le_iff hpos).mp le_rfl, fun q hq => (rateFactor_le_iff hpos).mpr hq⟩

end Sys2Proof.Machine
end

section
/-! PROOFS. What adding a list of values leaves in BUF, by cell, and the 32-bit words behind the
numbers of an injection (spec/41_impulse_injector.md R100, R103, R105). -/

namespace Sys2Proof.Machine

/-! ### The cells an addition reaches -/

theorem bufRead_addCells_base_add (m : Cells 32) (base k : Nat) (cs : List Int) :
    bufRead (addCells m base cs) (base + k)
      = bufRead m (base + k) + BitVec.ofInt 32 (cs.getD k 0) := by
  rw [bufRead_addCells, if_pos (Nat.le_add_right base k), Nat.add_sub_cancel_left]

theorem bufRead_addCells_other (m : Cells 32) {base j : Nat} {cs : List Int}
    (h : j < base ∨ base + cs.length ≤ j) : bufRead (addCells m base cs) j = bufRead m j := by
  rw [bufRead_addCells]
  split
  case isTrue hle =>
    rw [List.getD_eq_default _ _ (by omega)]
    exact BitVec.add_zero _
  case isFalse => exact BitVec.add_zero _

/-! ### The position as a word, and its fields (R100) -/

/-- The 32-bit position of the clock time in ARG0: the high half of the 64-bit product and sum. -/
def fixedWord (s : State) : Word :=
  (s.arg0.setWidth 64 * s.factor + s.offset).extractLsb' 32 32

theorem toNat_fixedWord (s : State) : (fixedWord s).toNat = fixedPos s (operand0 s) := by
  have hpos : (s.arg0.setWidth 64 * s.factor + s.offset).toNat = clockPos s (operand0 s) := by
    simp [clockPos, u64, operand0]
  have hlt := clockPos_lt s (operand0 s)
  rw [fixedWord, BitVec.extractLsb'_toNat, hpos, Nat.shiftRight_eq_div_pow, fixedPos,
    Config.preShift, Nat.mod_eq_of_lt (by omega)]

theorem targetCell_eq (s : State) :
    targetCell s (operand0 s) = s.avail.toNat + ((fixedWord s).extractLsb' 20 12).toNat := by
  have hlt := (fixedWord s).isLt
  rw [targetCell, ← toNat_fixedWord, BitVec.extractLsb'_toNat, Nat.shiftRight_eq_div_pow,
    Config.fracBits, Nat.mod_eq_of_lt (by omega)]

/-- The range check of R102 and R106 in the words of the operands. -/
theorem targetOutOfRange_iff (s : State) :
    TargetOutOfRange s (operand0 s) ↔
      s.params.capacity + 2 < s.avail.toNat + ((fixedWord s).extractLsb' 20 12).toNat := by
  rw [TargetOutOfRange, targetCell_eq, Config.endFrameExtra]

theorem phaseOf_toNat (fixed : Word) : phaseOf fixed.toNat = (fixed.extractLsb' 15 5).toNat := by
  rw [BitVec.extractLsb'_toNat, Nat.shiftRight_eq_div_pow]
  rfl

theorem interpOf_toNat (fixed : Word) : interpOf fixed.toNat = (fixed.extractLsb' 0 15).toNat := by
  rw [BitVec.extractLsb'_toNat]
  rfl

theorem fastWeight_toNat (fixed : Word) :
    fastWeight fixed.toNat = (fixed.extractLsb' 5 15).toNat := by
  rw [BitVec.extractLsb'_toNat, Nat.shiftRight_eq_div_pow]
  rfl

/-! ### Wrapped integers as words (R103, R105) -/

theorem ofInt_sub (a b : Int) :
    BitVec.ofInt 32 (a - b) = BitVec.ofInt 32 a - BitVec.ofInt 32 b := by
  rw [Int.sub_eq_add_neg, BitVec.ofInt_add, BitVec.ofInt_neg, BitVec.sub_eq_add_neg]

theorem wrap32_eq_toInt (v : Int) : wrap32 v = (BitVec.ofInt 32 v).toInt :=
  (BitVec.toInt_ofInt v).symm

theorem ofInt_wrap32 (v : Int) : BitVec.ofInt 32 (wrap32 v) = BitVec.ofInt 32 v := by
  rw [wrap32_eq_toInt, BitVec.ofInt_toInt]

theorem asr_toInt (x : Word) (n : Nat) : asr x.toInt n = (x.sshiftRight n).toInt := by
  rw [BitVec.toInt_sshiftRight, Int.shiftRight_eq_div_pow]
  rfl

/-- A 15-bit weight times a delta, modulo 2^32. -/
theorem ofInt_mul_weight (d : Word) (w : BitVec 15) :
    BitVec.ofInt 32 (d.toInt * w.toNat) = d * w.setWidth 32 := by
  rw [BitVec.ofInt_mul, BitVec.ofInt_toInt, BitVec.ofInt_natCast, BitVec.ofNat_toNat]

theorem deltaShare2_toInt (d : Word) (interp : BitVec 15) :
    deltaShare2 d.toInt interp.toNat = ((d * interp.setWidth 32).sshiftRight 15).toInt := by
  rw [deltaShare2, wrap32_eq_toInt, ofInt_mul_weight, asr_toInt, Config.deltaBits]

theorem deltaShare1_toInt (d : Word) (interp : BitVec 15) :
    deltaShare1 d.toInt interp.toNat
      = (d - (d * interp.setWidth 32).sshiftRight 15).toInt := by
  rw [deltaShare1, deltaShare2_toInt, wrap32_eq_toInt, ofInt_sub, BitVec.ofInt_toInt,
    BitVec.ofInt_toInt]

/-- KERNEL[row][tap] sign-extended to the width of a cell (20_memory.md R59). -/
def kernelWord (K : Config.Kernel) (row tap : Nat) : Word :=
  ((K.get (Fin.ofNat 33 row)).get (Fin.ofNat 8 tap)).signExtend 32

theorem ofInt_kernelCoeff (K : Config.Kernel) (row tap : Nat) :
    BitVec.ofInt 32 (kernelCoeff K row tap) = kernelWord K row tap := rfl

/-- Two taps weighted by the shares of a delta: the shape of every value R103 adds. -/
theorem ofInt_weighted_taps (K : Config.Kernel) (row row' tap : Nat) (x y : Word) :
    BitVec.ofInt 32 (kernelCoeff K row tap * x.toInt + kernelCoeff K row' tap * y.toInt)
      = kernelWord K row tap * x + kernelWord K row' tap * y := by
  rw [BitVec.ofInt_add, BitVec.ofInt_mul, BitVec.ofInt_mul, ofInt_kernelCoeff, ofInt_kernelCoeff,
    BitVec.ofInt_toInt, BitVec.ofInt_toInt]

end Sys2Proof.Machine
end

section
/-! PROOFS. ADD_DELTA and ADD_DELTA_FAST (spec/41_impulse_injector.md R103, R105): the values they
add, as 32-bit words, and the cells they add them to. -/

namespace Sys2Proof.Machine

/-! ### The values of ADD_DELTA (R103) -/

theorem getD_preciseTaps_first (K : Config.Kernel) (fixed : Nat) (d : Int) {k : Nat} (hk : k < 8) :
    (preciseTaps K fixed d).getD k 0
      = firstHalfTap K (phaseOf fixed) (deltaShare1 d (interpOf fixed))
          (deltaShare2 d (interpOf fixed)) k := by
  simp [preciseTaps, Config.halfWidth, List.getD, List.getElem?_append, hk]

theorem getD_preciseTaps_second (K : Config.Kernel) (fixed : Nat) (d : Int) {k : Nat}
    (hk : k < 8) :
    (preciseTaps K fixed d).getD (8 + k) 0
      = secondHalfTap K (phaseOf fixed) (deltaShare1 d (interpOf fixed))
          (deltaShare2 d (interpOf fixed)) k := by
  simp [preciseTaps, Config.halfWidth, List.getD, List.getElem?_append, hk]

/-- Settles O12: the position, its fields and the shares of the delta are the words of the
statement, so cell target + k gains the k-th value of `preciseTaps` as a word. -/
theorem addDeltaAddsSixteenCells : Obligations.AddDeltaAddsSixteenCells := by
  refine ⟨rfl, fun s hs => ?_⟩
  intro fixed target phase interp d2 d1 K
  have htarget : targetCell s (operand0 s) = target := targetCell_eq s
  have hphase : phaseOf (fixedPos s (operand0 s)) = phase :=
    toNat_fixedWord s ▸ phaseOf_toNat fixed
  have hinterp : interpOf (fixedPos s (operand0 s)) = interp.toNat :=
    toNat_fixedWord s ▸ interpOf_toNat fixed
  have hd2 : deltaShare2 (deltaOperand s) interp.toNat = d2.toInt := deltaShare2_toInt s.arg1 interp
  have hd1 : deltaShare1 (deltaOperand s) interp.toNat = d1.toInt := deltaShare1_toInt s.arg1 interp
  split
  case isTrue hout => exact execAddDelta_outOfRange hs ((targetOutOfRange_iff s).mpr hout)
  case isFalse hin =>
    refine ⟨_, execAddDelta_inRange hs (mt (targetOutOfRange_iff s).mp hin), fun k hk => ?first,
      fun k hk => ?second, fun j hj => ?frame⟩
    case first =>
      rw [htarget, bufRead_addCells_base_add, getD_preciseTaps_first _ _ _ hk, hphase, hinterp, hd2,
        hd1]
      exact congrArg _ (ofInt_weighted_taps s.params.kernel phase (phase + 1) k d1 d2)
    case second =>
      rw [htarget, Nat.add_assoc, bufRead_addCells_base_add, getD_preciseTaps_second _ _ _ hk,
        hphase, hinterp, hd2, hd1]
      exact congrArg _
        (ofInt_weighted_taps s.params.kernel (32 - phase) (31 - phase) (7 - k) d1 d2)
    case frame =>
      rw [htarget]
      exact bufRead_addCells_other s.buf (by simpa using hj)

/-! ### The values of ADD_DELTA_FAST (R105) -/

theorem ofInt_fastTaps_second (fixed d : Word) :
    BitVec.ofInt 32 ((fastTaps fixed.toNat d.toInt).getD 1 0)
      = d * (fixed.extractLsb' 5 15).setWidth 32 := by
  change BitVec.ofInt 32 (wrap32 _) = _
  rw [ofInt_wrap32, fastWeight_toNat, ofInt_mul_weight]

theorem ofInt_fastTaps_first (fixed d : Word) :
    BitVec.ofInt 32 ((fastTaps fixed.toNat d.toInt).getD 0 0)
      = d * 32768#32 - d * (fixed.extractLsb' 5 15).setWidth 32 := by
  change BitVec.ofInt 32 (wrap32 _ - wrap32 _) = _
  rw [ofInt_sub, ofInt_wrap32, ofInt_wrap32, fastWeight_toNat, ofInt_mul_weight,
    BitVec.ofInt_mul, BitVec.ofInt_toInt]
  rfl

/-- Settles O13: the two values of `fastTaps`, as words, go to the cells target + 7 and
target + 8. -/
theorem addDeltaFastAddsTwoCells : Obligations.AddDeltaFastAddsTwoCells := by
  refine ⟨rfl, fun s hs => ?_⟩
  intro fixed target d2
  have htarget : targetCell s (operand0 s) = target := targetCell_eq s
  have hfixed : fixedPos s (operand0 s) = fixed.toNat := (toNat_fixedWord s).symm
  split
  case isTrue hout => exact execAddDeltaFast_outOfRange hs ((targetOutOfRange_iff s).mpr hout)
  case isFalse hin =>
    refine ⟨_, execAddDeltaFast_inRange hs (mt (targetOutOfRange_iff s).mp hin), ?first, ?second,
      fun j h7 h8 => ?frame⟩ <;> rw [htarget, hfixed]
    case first =>
      exact (bufRead_addCells_base_add s.buf (target + 7) 0 _).trans
        (congrArg _ (ofInt_fastTaps_first fixed s.arg1))
    case second =>
      exact (bufRead_addCells_base_add s.buf (target + 7) 1 _).trans
        (congrArg _ (ofInt_fastTaps_second fixed s.arg1))
    case frame =>
      refine bufRead_addCells_other s.buf ?_
      rw [length_fastTaps]
      omega

end Sys2Proof.Machine
end

section
/-! PROOFS. Sequences of injections (spec/41_impulse_injector.md R107): an injection leaves
everything that injections read but BUF, so a sequence succeeds exactly when each injection alone
does, and adds to every cell the sum of what each injection alone adds. -/

namespace Sys2Proof.Machine

/-! ### One injection -/

/-- An injection succeeds on a CORE that is not halted when its target passes the range check (R102,
R106). -/
abbrev Injection.Accepted (s : State) (j : Injection) : Prop :=
  s.fatal = false ∧ ¬ TargetOutOfRange s j.clockTime.toNat

/-- The values an injection adds (R103, R105). -/
def Injection.taps (s : State) (j : Injection) : List Int :=
  let fixed := fixedPos s j.clockTime.toNat
  if j.fast then fastTaps fixed j.delta.toInt else preciseTaps s.params.kernel fixed j.delta.toInt

/-- The first cell an injection adds to. -/
def Injection.base (s : State) (j : Injection) : Nat :=
  targetCell s j.clockTime.toNat + if j.fast then 7 else 0

/-- The state a successful injection leaves. -/
def Injection.apply (s : State) (j : Injection) : State :=
  { withOperands s j.clockTime j.delta with
    code := 0#8
    buf := addCells s.buf (j.base s) (j.taps s) }

/-- What an injection adds to cell i. -/
def Injection.gain (s : State) (i : Nat) (j : Injection) : Word :=
  if j.base s ≤ i then BitVec.ofInt 32 ((j.taps s).getD (i - j.base s) 0) else 0#32

theorem Injection.bufRead_apply (s : State) (i : Nat) (j : Injection) :
    bufRead (j.apply s).buf i = bufRead s.buf i + j.gain s i :=
  bufRead_addCells _ _ _ _

theorem Injection.exec_of_accepted {s : State} {j : Injection} (h : j.Accepted s) :
    exec j.instr (withOperands s j.clockTime j.delta) = .next (j.apply s) := by
  obtain ⟨fast, t, d⟩ := j
  obtain ⟨hrunning, hrange⟩ := h
  cases fast with
  | false => exact execAddDelta_inRange (s := withOperands s t d) hrunning hrange
  | true => exact execAddDeltaFast_inRange (s := withOperands s t d) hrunning hrange

theorem Injection.exec_of_not_accepted {s : State} {j : Injection} (h : ¬ j.Accepted s) :
    ∃ t, exec j.instr (withOperands s j.clockTime j.delta) = .next t ∧ t.code ≠ 0#8 := by
  obtain ⟨fast, t, d⟩ := j
  by_cases hhalted : s.fatal = true
  · exact ⟨_, exec_halted (s := withOperands s t d) _ hhalted, (by decide : 0x07#8 ≠ 0#8)⟩
  · have hrunning : s.fatal = false := Bool.eq_false_of_not_eq_true hhalted
    have hrange : TargetOutOfRange s t.toNat := by
      by_contra hrange
      exact h ⟨hrunning, hrange⟩
    have hcode : 0x03#8 ≠ 0#8 := by decide
    cases fast with
    | false => exact ⟨_, execAddDelta_outOfRange (s := withOperands s t d) hrunning hrange, hcode⟩
    | true =>
      exact ⟨_, execAddDeltaFast_outOfRange (s := withOperands s t d) hrunning hrange, hcode⟩

/-! ### Sequences -/

theorem injectAll_cons (j : Injection) (js : List Injection) (s : State) :
    injectAll (j :: js) s = if j.Accepted s then injectAll js (j.apply s) else none := by
  split
  case isTrue h =>
    rw [injectAll, Injection.exec_of_accepted h]
    exact if_pos rfl
  case isFalse h =>
    obtain ⟨t, hexec, hcode⟩ := Injection.exec_of_not_accepted h
    rw [injectAll, hexec]
    exact if_neg hcode

/-- A sequence succeeds exactly when each injection alone would: none changes what the checks
read. -/
theorem injectAll_eq (js : List Injection) (s : State) :
    injectAll js s
      = if ∀ j ∈ js, j.Accepted s then some (js.foldl Injection.apply s) else none := by
  induction js generalizing s with
  | nil => rfl
  | cons j js ih =>
    have hkept : ∀ j', Injection.Accepted (j.apply s) j' ↔ Injection.Accepted s j' :=
      fun _ => Iff.rfl
    rw [injectAll_cons, ih]
    simp only [hkept, List.forall_mem_cons, List.foldl_cons, ite_and]

/-- The gains add up cell for cell: none changes what the gains depend on. -/
theorem bufRead_foldl_apply (js : List Injection) (s : State) (i : Nat) :
    bufRead (js.foldl Injection.apply s).buf i
      = bufRead s.buf i + (js.map (Injection.gain s i)).sum := by
  induction js generalizing s with
  | nil => simp
  | cons j js ih =>
    have hkept : Injection.gain (j.apply s) i = Injection.gain s i := rfl
    rw [List.foldl_cons, ih, hkept, Injection.bufRead_apply, List.map_cons, List.sum_cons,
      BitVec.add_assoc]

/-- Settles O14: whether all injections are accepted and what they add in sum are the same for every
order of the sequence. -/
theorem injectionsCommute : Obligations.InjectionsCommute := by
  intro js js' s t hperm hrun
  rw [injectAll_eq] at hrun
  obtain ⟨haccepted, hfinal⟩ := Option.ite_none_right_eq_some.mp hrun
  have haccepted' : ∀ j ∈ js', j.Accepted s := fun j hj => haccepted j (hperm.mem_iff.mpr hj)
  refine ⟨js'.foldl Injection.apply s, (injectAll_eq js' s).trans (if_pos haccepted'), fun i => ?_⟩
  have hsum := (hperm.map (Injection.gain s i)).sum_eq
  rw [← Option.some.inj hfinal, bufRead_foldl_apply, bufRead_foldl_apply, hsum]

end Sys2Proof.Machine
end

section
/-! PROOFS. The frame advancer (spec/42_frame_advancer.md R125, R127, R131): what END_FRAME commits and
carries over, in 64-bit words, and the clocks that CLOCKS_NEEDED answers. -/

namespace Sys2Proof.Machine

/-! ### The offset of a frame as a word (R125) -/

/-- off of R125 for the clock time in ARG0: a 64-bit product and sum. -/
def clockWord (s : State) : DWord := s.arg0.setWidth 64 * s.factor + s.offset

theorem toNat_clockWord (s : State) : (clockWord s).toNat = clockPos s (operand0 s) := by
  simp [clockWord, clockPos, u64, operand0]

theorem frameSamples_eq_toNat (s : State) :
    frameSamples s (operand0 s) = (clockWord s >>> 52).toNat := by
  rw [BitVec.toNat_ushiftRight, toNat_clockWord, Nat.shiftRight_eq_div_pow]
  rfl

/-- AVAIL is a word, so the count that is added to it is added as a word. -/
theorem ofNat_add_frameSamples (s : State) :
    BitVec.ofNat 32 (s.avail.toNat + frameSamples s (operand0 s))
      = s.avail + (clockWord s >>> 52).setWidth 32 := by
  rw [frameSamples_eq_toNat, BitVec.ofNat_add, BitVec.ofNat_toNat, BitVec.ofNat_toNat,
    BitVec.setWidth_eq]

/-- The remainder of a frame is the low 52 bits of its offset. -/
theorem ofNat_frameRemainder (s : State) :
    BitVec.ofNat 64 (frameRemainder s (operand0 s)) = clockWord s &&& 0xFFFFFFFFFFFFF#64 := by
  have hmask : (clockWord s &&& 0xFFFFFFFFFFFFF#64).toNat = frameRemainder s (operand0 s) := by
    rw [BitVec.toNat_and, toNat_clockWord]
    exact Nat.and_two_pow_sub_one_eq_mod _ 52
  rw [← hmask, BitVec.ofNat_toNat, BitVec.setWidth_eq]

/-- Settles O18: the samples and the remainder of a frame are the high 12 and the low 52 bits of
`clockWord`, and `execEndFrame` answers by the check of R127. -/
theorem endFrameCommitsSamples : Obligations.EndFrameCommitsSamples := by
  refine ⟨rfl, fun s hs => ?_⟩
  intro off n
  have hn : frameSamples s (operand0 s) = n.toNat := frameSamples_eq_toNat s
  split
  case isTrue hover => exact execEndFrame_overflow hs (hn ▸ hover)
  case isFalse hfits =>
    rw [exec, execEndFrame_fits hs (hn ▸ hfits), ofNat_add_frameSamples, ofNat_frameRemainder]
    rfl

/-! ### The clocks that N more samples take (R131) -/

theorem clocksFor_of_lt {s : State} {N : Nat} (h : 2 ^ 52 * N < s.offset.toNat) :
    clocksFor s N = 0#64 :=
  if_pos h

/-- With a legal FACTOR the quotient for a 32-bit N is at most 2^52, so RESULT holds it exactly. -/
theorem toNat_clocksFor {s : State} {N : Nat} (hN : N < 2 ^ 32) (hfactor : 2 ^ 32 ≤ s.factor.toNat)
    (h : ¬ 2 ^ 52 * N < s.offset.toNat) :
    (clocksFor s N).toNat = ceilDiv (2 ^ 52 * N - s.offset.toNat) s.factor.toNat := by
  have hpos : 0 < s.factor.toNat := by omega
  have hsmall : ceilDiv (2 ^ 52 * N - s.offset.toNat) s.factor.toNat ≤ 2 ^ 52 := by
    rw [ceilDiv_le_iff hpos]
    omega
  rw [clocksFor, Config.timeUnit, if_neg h, if_neg hpos.ne', BitVec.toNat_ofNat,
    Nat.mod_eq_of_lt (by omega)]

/-- Settles O22: RESULT is the ceiling of R131, and `ceilDiv_le_iff` says that the ceiling is the
least count of clocks that suffices. -/
theorem clocksNeededIsTheCeiling : Obligations.ClocksNeededIsTheCeiling := by
  refine ⟨rfl, fun s _ hregisters hs => ?_⟩
  obtain ⟨-, -, hfactor⟩ := hregisters
  have hpos : 0 < s.factor.toNat := by omega
  dsimp only
  split
  case isTrue hout => exact execClocksNeeded_outOfRange hs hout
  case isFalse hin =>
    refine ⟨clocksFor s s.arg0.toNat, execClocksNeeded_inRange hs hin, ?_⟩
    split
    case isTrue hbelow => exact clocksFor_of_lt hbelow
    case isFalse hreach =>
      rw [toNat_clocksFor s.arg0.isLt hfactor hreach]
      exact ⟨le_ceilDiv_mul hpos, fun q hq => (ceilDiv_le_iff hpos).mpr hq⟩

end Sys2Proof.Machine
end

section
/-! PROOFS. The sample extractor (spec/43_sample_extractor.md R140, R147, R153): the sums and
samples of a read's loop, the window move, and the run of elements it writes. -/

namespace Sys2Proof.Machine

/-! ### The loop of a read (R140, R142) -/

theorem toInt_integrate (acc cell : Word) :
    (integrate acc cell).toInt = wrap32 (acc.toInt + cell.toInt) :=
  (wrap32_eq_toInt _).symm

theorem toInt_highPass (acc : Word) (sample : Int) :
    (highPass acc sample).toInt = wrap32 (acc.toInt - sample * 64) :=
  (wrap32_eq_toInt _).symm

/-- Either order leaves the sum with the cell added and the sample taken fed back (R145). -/
theorem toInt_extractCell_sum (order : Config.SampleOrder) (acc cell : Word) :
    (extractCell order acc cell).2.toInt
      = wrap32 (wrap32 (acc.toInt + cell.toInt) - (extractCell order acc cell).1 * 64) := by
  cases order with
  | integrateFirst => rw [extractCell, toInt_highPass, toInt_integrate]
  | sampleFirst => rw [extractCell, toInt_highPass, toInt_integrate]

theorem extractCell_sample_range (order : Config.SampleOrder) (acc cell : Word) :
    -32768 ≤ (extractCell order acc cell).1 ∧ (extractCell order acc cell).1 ≤ 32767 := by
  cases order with
  | integrateFirst => exact sampleOf_range _
  | sampleFirst => exact sampleOf_range _

/-- INTEGRATOR before cell i of the read that the operands of s select. -/
def readSum (s : State) (i : Nat) : Word :=
  sumBefore s.params.sampleOrder s.integrator (bufFront s.buf (readCount s)) i

/-- The sample that read takes at cell i. -/
def readSample (s : State) (i : Nat) : Int :=
  (extractCell s.params.sampleOrder (readSum s i) (bufRead s.buf i)).1

theorem readSum_succ {s : State} {i : Nat} (hi : i < readCount s) :
    readSum s (i + 1)
      = (extractCell s.params.sampleOrder (readSum s i) (bufRead s.buf i)).2 := by
  rw [readSum, sumBefore, getD_bufFront s.buf hi, readSum]

theorem readRun_sum (s : State) : (readRun s).2 = readSum s (readCount s) := by
  rw [readRun, extractCells_sum, length_bufFront, readSum]

theorem readRun_sample {s : State} {i : Nat} (hi : i < readCount s) :
    (readRun s).1[i]? = some (readSample s i) := by
  rw [readRun, extractCells_sample _ _ _ _ (by simpa using hi), getD_bufFront s.buf hi, readSample,
    readSum]

theorem readSample_range (s : State) (i : Nat) :
    -32768 ≤ readSample s i ∧ readSample s i ≤ 32767 :=
  extractCell_sample_range _ _ _

/-- The sums and samples of a read are those of the loop in exact integers. -/
theorem extractLoop_read (s : State) :
    ExtractLoop s (readCount s) (fun i => (readSum s i).toInt) (readSample s) := by
  refine ⟨rfl, fun i hi => ?_⟩
  have hnext : (readSum s (i + 1)).toInt
      = wrap32 (wrap32 ((readSum s i).toInt + (bufRead s.buf i).toInt) - readSample s i * 64) := by
    rw [readSum_succ hi, toInt_extractCell_sum, readSample]
  dsimp only
  split
  case h_1 horder =>
    refine ⟨?_, hnext⟩
    rw [readSample, horder, extractCell, sampleOf, toInt_integrate, Config.deltaBits]
  case h_2 horder =>
    refine ⟨?_, hnext⟩
    rw [readSample, horder, extractCell, sampleOf, Config.deltaBits]

/-! ### The window move and AVAIL (R143, R147) -/

theorem shiftSpan_of_availPlusExtra {p : Config.Params} (h : p.shiftWindow = .availPlusExtra)
    (avail : Nat) : shiftSpan p avail = avail + 18 := by
  simp only [shiftSpan, h, Config.bufExtra]

theorem shiftSpan_of_wholeBuffer {p : Config.Params} (h : p.shiftWindow = .wholeBuffer)
    (avail : Nat) : shiftSpan p avail = p.capacity + 18 := by
  simp only [shiftSpan, h, bufLen, Config.bufExtra]

theorem shiftedBy_shiftCells {s : State} (h : s.avail.toNat ≤ s.params.capacity) :
    ShiftedBy s (readCount s)
      (shiftCells s.buf (readCount s) (shiftSpan s.params s.avail.toNat)) := by
  intro j
  rw [bufRead_shiftCells _ _ _ _ (readCount_le_shiftSpan h), Nat.add_comm j]
  cases hwindow : s.params.shiftWindow with
  | availPlusExtra =>
    simp only [shiftSpan_of_availPlusExtra hwindow, Nat.lt_sub_iff_add_lt']
  | wholeBuffer =>
    simp only [shiftSpan_of_wholeBuffer hwindow, Nat.lt_sub_iff_add_lt']

theorem ofNat_avail_sub_readCount (s : State) :
    BitVec.ofNat 32 (s.avail.toNat - readCount s) = s.avail - BitVec.ofNat 32 (readCount s) := by
  have hle := readCount_le_avail s
  have hlt := s.avail.isLt
  rw [← BitVec.ofNat_sub_ofNat_of_le _ _ (by omega) hle, BitVec.ofNat_toNat, BitVec.setWidth_eq]

/-! ### The elements of a read (R149, R152) -/

/-- Element i of a read holds the encoding of the sample taken at cell i. -/
theorem cellFind_writeRun_readRun {w : Nat} (encoding : Int → BitVec w) (m : Cells w) (base : Nat)
    (stereo : Bool) {s : State} {i : Nat} (hi : i < readCount s) :
    cellFind (writeRun m base (outStep stereo) ((readRun s).1.map encoding))
        (base + i * outStep stereo)
      = some (encoding (readSample s i)) := by
  have hstep : 0 < outStep stereo := by cases stereo <;> decide
  have hlen : i < ((readRun s).1.map encoding).length := by simpa using hi
  rw [cellFind_writeRun _ hstep _ _ _ _ hlen, ← List.getElem?_eq_getElem, List.getElem?_map,
    readRun_sample hi, Option.map_some]

theorem cellFind_writeRun_readRun_other {w : Nat} (encoding : Int → BitVec w) (m : Cells w)
    {base step j : Nat} {s : State} (hj : ∀ i < readCount s, j ≠ base + i * step) :
    cellFind (writeRun m base step ((readRun s).1.map encoding)) j = cellFind m j :=
  cellFind_writeRun_other _ _ _ _ _ (by simpa using hj)

/-! ### The 16-bit element of a sample (R154) -/

theorem toInt_pcm16 {sample : Int} (h : -32768 ≤ sample ∧ sample ≤ 32767) :
    (pcm16 sample).toInt = sample := by
  rw [pcm16, BitVec.toInt_ofInt, Int.bmod_eq_of_le] <;> omega

/-- Settles O25: the loop's sums and samples are `readSum` and `readSample`, and the three answers
of `execReadSamples_cases` are the three branches of the statement. -/
theorem readSamplesExtracts : Obligations.ReadSamplesExtracts := by
  refine ⟨rfl, rfl, fun s stereo hs havail => ?_⟩
  intro n base step
  rcases execReadSamples_cases stereo hs with
    ⟨hnone, hexec⟩ | ⟨hsome, hrange, hexec⟩ | ⟨hsome, hrange, hexec⟩
  · exact (if_pos hnone).mpr hexec
  · exact (if_neg hsome).mpr ((if_pos hrange).mpr hexec)
  · rw [ofNat_avail_sub_readCount] at hexec
    refine (if_neg hsome).mpr ((if_neg hrange).mpr ⟨_, readSample s, _, _, _, hexec,
      extractLoop_read s, congrArg BitVec.toInt (readRun_sum s), shiftedBy_shiftCells havail,
      fun i hi => ⟨_, cellFind_writeRun_readRun pcm16 s.out16 base stereo hi, ?_⟩,
      fun j hj => cellFind_writeRun_readRun_other pcm16 s.out16 hj⟩)
    exact toInt_pcm16 (readSample_range s i)

end Sys2Proof.Machine
end

section
/-! PROOFS. READ_FLOAT_SAMPLES (spec/43_sample_extractor.md R155, R156): the number a binary32
pattern stands for by its fields, and the pattern of an integer of at most 24 significant bits. -/

namespace Sys2Proof.Machine

/-! ### The fields of a pattern (R155) -/

theorem binary32Value_zero : binary32Value 0#32 = 0 := by
  simp [binary32Value]

/-- The number of a pattern of sign, exponent field e and fraction field f, neither subnormal nor of
exponent 255. -/
theorem binary32Value_of_toNat {b : Word} {neg : Prop} [Decidable neg] {e f : Nat}
    (hb : b.toNat = (if neg then 2 ^ 31 else 0) + 2 ^ 23 * e + f) (hpos : 0 < e) (he : e < 255)
    (hf : f < 2 ^ 23) :
    binary32Value b = (if neg then -1 else 1) * (1 + (f : ℚ) / 2 ^ 23) * 2 ^ e / 2 ^ 127 := by
  have hexp : (b.extractLsb' 23 8).toNat = e := by
    rw [BitVec.extractLsb'_toNat, hb, Nat.shiftRight_eq_div_pow]
    split <;> omega
  have hfrac : (b.extractLsb' 0 23).toNat = f := by
    rw [BitVec.extractLsb'_toNat, hb, Nat.shiftRight_zero]
    split <;> omega
  have hsign : b.msb = true ↔ neg := by
    rw [BitVec.msb_eq_true_iff_two_mul_ge, hb]
    split
    case isTrue hneg => exact iff_of_true (by omega) hneg
    case isFalse hneg => exact iff_of_false (by omega) hneg
  simp only [binary32Value, hexp, hfrac, hsign, if_neg he.ne, if_neg hpos.ne']

/-! ### The leading one and the fraction of a magnitude (R156) -/

theorem two_pow_log2_mul {m : Nat} (hpos : m ≠ 0) (hm : m < 2 ^ 24) :
    2 ^ m.log2 * 2 ^ (23 - m.log2) = 2 ^ 23 := by
  have he : m.log2 < 24 := (Nat.log2_lt hpos).mpr hm
  rw [← pow_add, Nat.add_sub_cancel' (by omega)]

/-- Moving the leading one of a number below 2^24 to bit 23 drops no bit: the fraction field is what
stands below it. -/
theorem mul_two_pow_eq_leading_add_fraction {m : Nat} (hpos : m ≠ 0) (hm : m < 2 ^ 24) :
    m * 2 ^ (23 - m.log2) = 2 ^ 23 + m * 2 ^ (23 - m.log2) % 2 ^ 23 := by
  have hscale := two_pow_log2_mul hpos hm
  have hlo : 2 ^ m.log2 * 2 ^ (23 - m.log2) ≤ m * 2 ^ (23 - m.log2) :=
    Nat.mul_le_mul_right _ (Nat.log2_self_le hpos)
  have hhi : m * 2 ^ (23 - m.log2) < 2 ^ (m.log2 + 1) * 2 ^ (23 - m.log2) :=
    Nat.mul_lt_mul_of_pos_right Nat.lt_log2_self (by positivity)
  rw [pow_succ', mul_assoc] at hhi
  omega

/-- A number below 2^24 is its fraction field under a leading one, scaled. -/
theorem natCast_eq_significand {m : Nat} (hpos : m ≠ 0) (hm : m < 2 ^ 24) :
    (m : ℚ) = (1 + (m * 2 ^ (23 - m.log2) % 2 ^ 23 : ℕ) / 2 ^ 23) * 2 ^ m.log2 := by
  have hscale : (2 ^ m.log2 * 2 ^ (23 - m.log2) : ℚ) = 2 ^ 23 := by
    exact_mod_cast two_pow_log2_mul hpos hm
  have hsplit : (m * 2 ^ (23 - m.log2) : ℚ)
      = 2 ^ 23 + (m * 2 ^ (23 - m.log2) % 2 ^ 23 : ℕ) := by
    exact_mod_cast mul_two_pow_eq_leading_add_fraction hpos hm
  apply mul_right_cancel₀ (pow_ne_zero (23 - m.log2) (two_ne_zero (α := ℚ)))
  rw [hsplit, mul_assoc, hscale]
  ring

theorem intCast_eq_sign_mul_natAbs (z : Int) :
    (z : ℚ) = (if z < 0 then -1 else 1) * (z.natAbs : ℚ) := by
  split
  case isTrue h => rw [Nat.cast_natAbs, abs_of_neg h, Int.cast_neg, neg_one_mul, neg_neg]
  case isFalse h => rw [Nat.cast_natAbs, abs_of_nonneg (Int.not_lt.mp h), one_mul]

/-! ### The pattern of a sample (R156) -/

@[simp] theorem float32_zero : float32 0 = 0#32 := rfl

theorem toNat_float32 {sample : Int} (hne : sample ≠ 0) (h : sample.natAbs < 2 ^ 24) :
    (float32 sample).toNat
      = (if sample < 0 then 2 ^ 31 else 0) + 2 ^ 23 * (sample.natAbs.log2 + 112)
        + sample.natAbs * 2 ^ (23 - sample.natAbs.log2) % 2 ^ 23 := by
  have he : sample.natAbs.log2 < 24 := (Nat.log2_lt (Int.natAbs_ne_zero.mpr hne)).mpr h
  have hf : sample.natAbs * 2 ^ (23 - sample.natAbs.log2) % 2 ^ 23 < 2 ^ 23 :=
    Nat.mod_lt _ (by decide)
  simp only [float32, if_neg hne, BitVec.toNat_ofNat]
  split <;> omega

/-- The scaling is exact for every magnitude that 24 significant bits hold. -/
theorem binary32Value_float32 {sample : Int} (h : sample.natAbs < 2 ^ 24) :
    binary32Value (float32 sample) = sample / 32768 := by
  rcases eq_or_ne sample 0 with rfl | hne
  · rw [float32_zero, binary32Value_zero, Int.cast_zero, zero_div]
  · have hm : sample.natAbs ≠ 0 := Int.natAbs_ne_zero.mpr hne
    have he : sample.natAbs.log2 < 24 := (Nat.log2_lt hm).mpr h
    rw [binary32Value_of_toNat (toNat_float32 hne h) (by omega) (by omega)
      (Nat.mod_lt _ (by decide)), intCast_eq_sign_mul_natAbs, natCast_eq_significand hm h, pow_add]
    ring

/-- Settles O26: the branches are those of `execReadFloatSamples_cases`, as for READ_SAMPLES, and
every sample is small enough for `float32` to be exact. -/
theorem readFloatSamplesExtracts : Obligations.ReadFloatSamplesExtracts := by
  refine ⟨rfl, rfl, fun s stereo hs havail => ?_⟩
  intro n base step
  rcases execReadFloatSamples_cases stereo hs with
    ⟨hnone, hexec⟩ | ⟨hsome, hrange, hexec⟩ | ⟨hsome, hrange, hexec⟩
  · exact (if_pos hnone).mpr hexec
  · exact (if_neg hsome).mpr ((if_pos hrange).mpr hexec)
  · rw [ofNat_avail_sub_readCount] at hexec
    refine (if_neg hsome).mpr ((if_neg hrange).mpr ⟨_, readSample s, _, _, _, hexec,
      extractLoop_read s, congrArg BitVec.toInt (readRun_sum s), shiftedBy_shiftCells havail,
      fun i hi => ⟨_, cellFind_writeRun_readRun float32 s.outF base stereo hi, ?value, ?zero⟩,
      fun j hj => cellFind_writeRun_readRun_other float32 s.outF hj⟩)
    case value =>
      have hsample := readSample_range s i
      exact binary32Value_float32 (by omega)
    case zero => exact fun hzero => (congrArg float32 hzero).trans float32_zero

end Sys2Proof.Machine
end

section
/-! PROOFS. CLEAR (spec/44_control.md R165): the initial phase it computes from FACTOR, and the empty
buffer it leaves. -/

namespace Sys2Proof.Machine

/-- The phase is at most 2^51, so narrowing it to OFFSET loses nothing. -/
theorem toNat_initialPhase (factor : DWord) :
    (initialPhase factor).toNat = min (factor.toNat / 2) (2 ^ 51) := by
  simp only [initialPhase, Config.timeUnit, BitVec.toNat_ofNat]
  omega

/-- Settles O9: the halted CORE refuses CLEAR as every command, and `execClear_running` leaves the
initial phase and the empty list of cells. -/
theorem clearReturnsToInitialPhase : Obligations.ClearReturnsToInitialPhase := by
  refine ⟨rfl, fun s hhalted => exec_halted .clear hhalted, fun s hs => ?running⟩
  case running =>
    exact ⟨initialPhase s.factor, [], execClear_running hs,
      (toNat_initialPhase s.factor).trans Nat.min_def, bufRead_nil⟩

end Sys2Proof.Machine
end

section
/-! PROOFS. Aligned 32-bit accesses at any offset of the register window (spec/20_memory.md R52, R53,
spec/44_control.md R166, R167): which register an offset reaches, and what it returns or sets. -/

namespace Sys2Proof.Machine

/-- The registers by their offsets (20_memory.md R52), every other offset being reserved (R53). -/
theorem regAt_eq_ite (off : Nat) :
    regAt off = if off = 0x00 then .cmd else if off = 0x04 then .arg0 else if off = 0x08 then .arg1
      else if off = 0x0C then .status else if off = 0x10 then .resultLo
      else if off = 0x14 then .resultHi else if off = 0x18 then .avail else .reserved := by
  split_ifs
  case neg => exact regAt.eq_8 off ‹_› ‹_› ‹_› ‹_› ‹_› ‹_› ‹_›
  all_goals subst off; rfl

theorem hostStore_aligned (s : State) {off : Nat} (v : Word) (h : off % 4 = 0) :
    hostStore s (s.params.regBase + off) 32 v = writeReg s (regAt off) v := by
  simp [hostStore, regAccess, h]

theorem hostLoad_aligned (s : State) {off : Nat} (h : off % 4 = 0) :
    hostLoad s (s.params.regBase + off) 32 = .next (returnValue s (readReg s (regAt off))) := by
  simp [hostLoad, regAccess, h]

/-- The fields of STATUS do not overlap (10_state.md R27). -/
theorem toNat_statusWord (code : BitVec 8) (fatal : Bool) :
    (statusWord code fatal).toNat = fatal.toNat * 2 ^ 8 + code.toNat := by
  have hfatal : (0#23 ++ BitVec.ofBool fatal).toNat = fatal.toNat := by cases fatal <;> rfl
  rw [statusWord, BitVec.toNat_append, ← Nat.shiftLeft_add_eq_or_of_lt code.isLt,
    Nat.shiftLeft_eq, hfatal]

theorem toNat_readReg_resultLo (s : State) :
    (readReg s .resultLo).toNat = s.result.toNat % 2 ^ 32 :=
  BitVec.extractLsb'_toNat ..

theorem toNat_readReg_resultHi (s : State) :
    (readReg s .resultHi).toNat = s.result.toNat / 2 ^ 32 := by
  have hresult := s.result.isLt
  rw [readReg, BitVec.extractLsb'_toNat, Nat.shiftRight_eq_div_pow]
  omega

/-- Settles O38: an aligned load records `readReg` of the register at its offset. CMD returns the 0 of
the last branch; the cases are then those of the statement in order, and only STATUS and the two halves
of RESULT are not a whole field or 0. -/
theorem registerReadsReturn : Obligations.RegisterReadsReturn := by
  intro s off rest hs halign
  refine ⟨readReg s (regAt off),
    (step_cons hs).trans (hostLoad_aligned (s.withScript rest) halign), ?value⟩
  case value =>
    obtain rfl | hcmd := eq_or_ne off 0x00
    · rfl
    · rw [regAt_eq_ite, if_neg hcmd]
      split_ifs
      · rfl
      · rfl
      · exact toNat_statusWord s.code s.fatal
      · exact toNat_readReg_resultLo s
      · exact toNat_readReg_resultHi s
      · rfl
      · rfl

/-- Settles O39: an aligned store is `writeReg` of the register at its offset, whose only writable
registers are CMD, ARG0 and ARG1. -/
theorem registerWritesSet : Obligations.RegisterWritesSet := by
  intro s off v rest hs halign
  calc step s
    _ = hostStore (s.withScript rest) (s.params.regBase + off) 32 v := step_cons hs
    _ = writeReg (s.withScript rest) (regAt off) v := hostStore_aligned (s.withScript rest) v halign
    _ = _ := by rw [regAt_eq_ite]; split_ifs <;> rfl

end Sys2Proof.Machine
end

section
/-! PROOFS. How a command ends (spec/60_exceptions.md R171): every one by `finish` or by `raise`,
and what either leaves of the state. -/

namespace Sys2Proof.Machine

/-! ### The two ends of a command -/

/-- The outcome `o` of a command on `s` is that of a command that succeeds, or of one that raises a
code on `s` as the command found it. -/
def EndsCommand (s : State) (o : Host.Outcome State Fault Refusal) : Prop :=
  (∃ u, o = finish u) ∨ ∃ c, o = raise c s

theorem endsCommand_finish (s u : State) : EndsCommand s (finish u) := .inl ⟨u, rfl⟩

theorem endsCommand_raise (s : State) (c : Code) : EndsCommand s (raise c s) := .inr ⟨c, rfl⟩

theorem endsCommand_ite {s : State} {o o' : Host.Outcome State Fault Refusal} (p : Prop)
    [Decidable p] (h : EndsCommand s o) (h' : EndsCommand s o') :
    EndsCommand s (if p then o else o') := by
  split
  · exact h
  · exact h'

/-- The body of most commands: a check that raises, then the effect. -/
theorem endsCommand_check (p : Prop) [Decidable p] (c : Code) (s u : State) :
    EndsCommand s (if p then raise c s else finish u) :=
  endsCommand_ite p (endsCommand_raise s c) (endsCommand_finish s u)

theorem endsCommand_unlessHalted {s : State} {command : State → Host.Outcome State Fault Refusal}
    (h : EndsCommand s (command s)) : EndsCommand s (unlessHalted s command) :=
  endsCommand_ite _ (endsCommand_raise s .halted) h

theorem endsCommand_extract (outLen : Nat) (write : State → List Int → State) (stereo : Bool)
    (s : State) : EndsCommand s (extract outLen write stereo s) :=
  endsCommand_ite _ (endsCommand_finish s _) (endsCommand_check _ .outRange s _)

/-- The halted check stands before every command (R173), which then ends in one of the same ways. -/
theorem endsCommand_exec (i : Instr) (s : State) : EndsCommand s (exec i s) := by
  cases i <;> dsimp only [exec] <;> refine endsCommand_unlessHalted ?_
  case clear => exact endsCommand_finish s _
  case setRates => exact endsCommand_check _ .rates s _
  case addDelta => exact endsCommand_check _ .deltaRange s _
  case addDeltaFast => exact endsCommand_check _ .deltaRange s _
  case endFrame => exact endsCommand_check _ .frameOverflow s _
  case clocksNeeded => exact endsCommand_check _ .clocksRange s _
  case readSamples stereo => exact endsCommand_extract _ _ stereo s
  case readFloatSamples stereo => exact endsCommand_extract _ _ stereo s

theorem endsCommand_performCommand (w : Word) (s : State) : EndsCommand s (performCommand w s) := by
  cases hw : decode w with
  | ok i =>
    rw [performCommand_of_decode_ok hw]
    exact endsCommand_exec i s
  | error r =>
    rw [performCommand_of_illegal (by simp [hw])]
    exact endsCommand_unlessHalted (endsCommand_raise s .illegal)

/-! ### What an error leaves (R170, R171) -/

/-- ERR_FRAME_OVERFLOW is the one code that sets FATAL. -/
theorem Code.setsFatal_eq_decide (c : Code) : c.setsFatal = decide (c.bits = 0x06#8) := by
  cases c <;> rfl

/-- Settles O32: a command that ends with a code other than OK did not end by `finish`, and `raise`
writes CODE and the FATAL latch alone. -/
theorem errorChangesOnlyStatus : Obligations.ErrorChangesOnlyStatus := by
  intro w s t hnext herror
  obtain ⟨u, hfinish⟩ | ⟨c, hraise⟩ := endsCommand_performCommand w s
  · have hok : t = { u with code := 0#8 } := finish_next (hfinish.symm.trans hnext)
    subst hok
    exact absurd rfl herror
  · have hstatus : t = { s with code := c.bits, fatal := s.fatal || c.setsFatal } :=
      raise_next (hraise.symm.trans hnext)
    subst hstatus
    simp only [Code.setsFatal_eq_decide]

end Sys2Proof.Machine
end

section
/-! PROOFS. The halted CORE (spec/60_exceptions.md R176): what each access of the host does while
FATAL = 1, and that none but reset clears the latch. -/

namespace Sys2Proof.Machine

/-- If the outcome is a next state, that state is halted. -/
def StaysHalted (o : Host.Outcome State Fault Refusal) : Prop :=
  ∀ t, o = .next t → t.fatal = true

theorem staysHalted_next {u : State} (hu : u.fatal = true) : StaysHalted (.next u) := by
  intro t hnext
  cases hnext
  exact hu

theorem staysHalted_fault (r : Fault) : StaysHalted (.fault r) := by
  intro t hnext
  cases hnext

theorem staysHalted_ite {o o' : Host.Outcome State Fault Refusal} (p : Prop) [Decidable p]
    (h : StaysHalted o) (h' : StaysHalted o') : StaysHalted (if p then o else o') := by
  split
  · exact h
  · exact h'

section
variable {s : State} (hs : s.fatal = true)
include hs

/-- A write of CMD is refused, and no other register holds FATAL. -/
theorem staysHalted_writeReg (r : Reg) (v : Word) : StaysHalted (writeReg s r v) := by
  cases r with
  | cmd =>
    rw [writeReg, performCommand_halted v hs]
    exact staysHalted_next hs
  | _ => exact staysHalted_next hs

theorem staysHalted_hostStore (addr width : Nat) (v : Word) :
    StaysHalted (hostStore s addr width v) := by
  refine staysHalted_ite _ (staysHalted_fault _) ?_
  cases regAccess (addr - s.params.regBase) width with
  | some r => exact staysHalted_writeReg hs r v
  | none => exact staysHalted_next hs

theorem staysHalted_hostLoad (addr width : Nat) : StaysHalted (hostLoad s addr width) := by
  refine staysHalted_ite _ (staysHalted_fault _) ?_
  cases regAccess (addr - s.params.regBase) width with
  | some r => exact staysHalted_next hs
  | none => exact staysHalted_next hs

theorem staysHalted_performAction {a : HostAction} (ha : a ≠ .assertReset) :
    StaysHalted (performAction a s) := by
  cases a with
  | store addr width v => exact staysHalted_hostStore hs addr width v
  | load addr width => exact staysHalted_hostLoad hs addr width
  | check =>
    refine staysHalted_next ?_
    split
    · exact hs
    · exact hs
  | writeOut16 i v => exact staysHalted_ite _ (staysHalted_next hs) (staysHalted_fault _)
  | readOut16 i => exact staysHalted_ite _ (staysHalted_next hs) (staysHalted_fault _)
  | writeOutF i v => exact staysHalted_ite _ (staysHalted_next hs) (staysHalted_fault _)
  | readOutF i => exact staysHalted_ite _ (staysHalted_next hs) (staysHalted_fault _)
  | assertReset => exact absurd rfl ha

/-- A halted CORE holds its state while no access is pending (R182). -/
theorem staysHalted_step (hreset : s.script.head? ≠ some .assertReset) : StaysHalted (step s) := by
  cases hscript : s.script with
  | nil =>
    simp only [step, hostStep, hscript]
    exact staysHalted_next hs
  | cons a rest =>
    have ha : a ≠ .assertReset := by simpa [hscript] using hreset
    rw [step_cons hscript]
    exact staysHalted_performAction (s := s.withScript rest) hs ha

end

/-- Settles O34: the accesses that still work are those of the register window, `staysHalted_step`
says that nothing but reset clears the latch, and `resetEvent` clears it. -/
theorem haltedUntilReset : Obligations.HaltedUntilReset := by
  intro s hs
  refine ⟨fun w => performCommand_halted w hs, fun v rest hscript => ?arg0,
    fun v rest hscript => ?arg1, fun off rest hscript halign => ?load,
    fun t hnext hrunning => ?onlyReset, fun rest hscript => ?reset⟩
  case arg0 => exact step_store_register (r := .arg0) hscript
  case arg1 => exact step_store_register (r := .arg1) hscript
  case load => exact (step_cons hscript).trans (hostLoad_aligned (s.withScript rest) halign)
  case onlyReset =>
    by_contra hother
    have hhalted : t.fatal = true := staysHalted_step hs hother t hnext
    simp [hrunning] at hhalted
  case reset => exact ⟨resetEvent (s.withScript rest), step_cons hscript, rfl⟩

end Sys2Proof.Machine
end

section
/-! PROOFS. The reset event (spec/70_reset_and_hazards.md R190): what the host's reset leaves in every
register, and what it does not touch. -/

namespace Sys2Proof.Machine

theorem step_assertReset {s : State} {rest : List HostAction} (h : s.script = .assertReset :: rest) :
    step s = .next (resetEvent (s.withScript rest)) :=
  step_cons h

/-- Reset computes OFFSET as CLEAR does (R190), from FACTOR_RESET: the minimum is FACTOR_RESET / 2. -/
theorem toNat_offset_resetEvent (s : State) : (resetEvent s).offset.toNat = 2 ^ 31 :=
  calc (resetEvent s).offset.toNat
    _ = min (Config.factorReset.toNat / 2) (2 ^ 51) := toNat_initialPhase Config.factorReset
    _ = 2 ^ 31 := by decide

/-- Settles O45: the step is the reset event on the state without the access, which overwrites every
register with its constant, empties BUF and keeps the other fields; only OFFSET is computed. -/
theorem resetSetsTheStatedValues : Obligations.ResetSetsTheStatedValues := by
  intro s rest hscript
  have hoffset := toNat_offset_resetEvent (s.withScript rest)
  exact ⟨resetEvent (s.withScript rest), step_assertReset hscript, rfl, hoffset, rfl, rfl,
    bufRead_nil, rfl, rfl, rfl, rfl, rfl, rfl, rfl, rfl⟩

end Sys2Proof.Machine
end

section
/-! PROOFS. Commands and words are the same thing (spec/30_encoding.md R70, R72, R75, R78), in bytes
too (spec/20_memory.md R55), and a word placed for the next step runs as its command. -/

namespace Sys2Proof

/-- Settles O2: every instruction is well-formed, and `decode_eq_ok_iff` says it of every one. -/
theorem decodeInvertsEncode : Obligations.DecodeInvertsEncode :=
  fun _ _ _ => decode_eq_ok_iff

/-! ### Words as bytes (20_memory.md R55) -/

theorem wordOfBytes_littleEndianByte (w : Word) :
    wordOfBytes (littleEndianByte w 0) (littleEndianByte w 1) (littleEndianByte w 2)
      (littleEndianByte w 3) = w := by
  simp only [wordOfBytes, littleEndianByte]
  rw [BitVec.extractLsb'_append_extractLsb'_eq_extractLsb',
    BitVec.extractLsb'_append_extractLsb'_eq_extractLsb',
    BitVec.extractLsb'_append_extractLsb'_eq_extractLsb']
  · exact BitVec.extractLsb'_eq_self
  all_goals rfl

theorem halfOfBytes_littleEndianByte (v : Half) :
    littleEndianByte v 1 ++ littleEndianByte v 0 = v := by
  simp only [littleEndianByte]
  rw [BitVec.extractLsb'_append_extractLsb'_eq_extractLsb']
  · exact BitVec.extractLsb'_eq_self
  · rfl

theorem decodeBytes_bytesOfWord (w : Word) (rest : List Byte) :
    decodeBytes (bytesOfWord w ++ rest) = some (decode w, rest) := by
  rw [bytesOfWord, List.cons_append, List.cons_append, List.cons_append, List.cons_append,
    List.nil_append, decodeBytes, wordOfBytes_littleEndianByte]

/-- Settles O3: the bytes of a word make up the word, and the word of a command decodes to it. -/
theorem encodedBytesDecode : Obligations.EncodedBytesDecode := by
  intro i rest _
  rw [decodeBytes_bytesOfWord, decode_encode]

/-- Settles O4: the four words are encodings. -/
theorem specWordsDecode : Obligations.SpecWordsDecode :=
  ⟨decode_encode .clear, decode_encode .endFrame, decode_encode (.readSamples true),
    decode_encode (.readFloatSamples false)⟩

theorem decodeTableWord_eq_some_iff {nbits w : Nat} {i : Instr} :
    decodeTableWord nbits w = some i ↔ decode (BitVec.ofNat 32 (w % 2 ^ nbits)) = .ok i := by
  have hbytes := decodeBytes_bytesOfWord (BitVec.ofNat 32 (w % 2 ^ nbits)) []
  rw [List.append_nil] at hbytes
  rw [decodeTableWord, hbytes]
  cases decode (BitVec.ofNat 32 (w % 2 ^ nbits)) with
  | ok j => simp
  | error r => simp

namespace Machine

/-- Settles O7: the placed word is the next access of the script, a store to CMD, and taking it from
the script gives the state back. -/
theorem placedWordRunsNext : Obligations.PlacedWordRunsNext := by
  intro s nbits w i hword
  exact (step_store_register (s := s.withFetchWord nbits w) (r := .cmd) rfl).trans
    (performCommand_of_decode_ok (decodeTableWord_eq_some_iff.mp hword) s)

end Machine
end Sys2Proof
end

section
/-! PROOFS. What a command can answer, said once over all commands: the refusal of a halted CORE,
the command's own error where its check fails, or its effect (spec/60_exceptions.md R170, R171,
R173). -/

namespace Sys2Proof.Machine

/-- The check of a command that ends it in its error; CLEAR has none. -/
def CommandFails (s : State) : Instr → Prop
  | .clear => False
  | .setRates => RatesRejected (operand0 s) (operand1 s)
  | .addDelta => TargetOutOfRange s (operand0 s)
  | .addDeltaFast => TargetOutOfRange s (operand0 s)
  | .endFrame => s.params.capacity < s.avail.toNat + frameSamples s (operand0 s)
  | .clocksNeeded => s.params.capacity < s.avail.toNat + operand0 s
  | .readSamples stereo => readCount s ≠ 0 ∧ OutOfRange s.params.out16Len stereo s
  | .readFloatSamples stereo => readCount s ≠ 0 ∧ OutOfRange s.params.outFLen stereo s

/-- The error of a command in the table of R170; OK for CLEAR, which has none. -/
def commandError : Instr → Code
  | .clear => .ok
  | .setRates => .rates
  | .addDelta => .deltaRange
  | .addDeltaFast => .deltaRange
  | .endFrame => .frameOverflow
  | .clocksNeeded => .clocksRange
  | .readSamples _ => .outRange
  | .readFloatSamples _ => .outRange

/-- The state a successful command leaves, but for CODE. -/
def commandEffect (s : State) : Instr → State
  | .clear => clearState s
  | .setRates => s.withFactor (BitVec.ofNat 64 (rateFactor (operand0 s) (operand1 s)))
  | .addDelta => s.withBuf (addCells s.buf (targetCell s (operand0 s))
      (preciseTaps s.params.kernel (fixedPos s (operand0 s)) (deltaOperand s)))
  | .addDeltaFast => s.withBuf (addCells s.buf (targetCell s (operand0 s) + 7)
      (fastTaps (fixedPos s (operand0 s)) (deltaOperand s)))
  | .endFrame =>
    (s.withAvail (BitVec.ofNat 32 (s.avail.toNat + frameSamples s (operand0 s)))).withOffset
      (BitVec.ofNat 64 (frameRemainder s (operand0 s)))
  | .clocksNeeded => s.withResult (clocksFor s (operand0 s))
  | .readSamples stereo => writeSamples16 stereo (drainState s) (readRun s).1
  | .readFloatSamples stereo => writeSamplesF stereo (drainState s) (readRun s).1

/-! ### A read of nothing (43_sample_extractor.md R141) -/

theorem shiftCells_zero (m : Cells 32) (span : Nat) : shiftCells m 0 span = m := by
  simp [shiftCells]

theorem readRun_of_readCount_zero {s : State} (h : readCount s = 0) :
    readRun s = ([], s.integrator) := by
  simp [readRun, h, bufFront, extractCells]

/-- Draining no cell writes RESULT = 0 alone. -/
theorem drainState_of_readCount_zero {s : State} (h : readCount s = 0) :
    drainState s = s.withResult 0#64 := by
  simp [drainState, h, readRun_of_readCount_zero h, shiftCells_zero, State.withIntegrator,
    State.withBuf, State.withAvail]

theorem extract_of_outOfRange {outLen : Nat} {write : State → List Int → State} {stereo : Bool}
    {s : State} (h : readCount s ≠ 0 ∧ OutOfRange outLen stereo s) :
    extract outLen write stereo s = raise .outRange s := by
  rw [extract, if_neg h.1, if_pos h.2]

/-- A read that fits drains and writes its run, a read of nothing among them. -/
theorem extract_of_inRange {outLen : Nat} {write : State → List Int → State} {stereo : Bool}
    {s : State} (hwrite : write (s.withResult 0#64) [] = s.withResult 0#64)
    (h : ¬ (readCount s ≠ 0 ∧ OutOfRange outLen stereo s)) :
    extract outLen write stereo s = finish (write (drainState s) (readRun s).1) := by
  rw [extract]
  split
  case isTrue hnone =>
    rw [drainState_of_readCount_zero hnone, readRun_of_readCount_zero hnone, hwrite]
  case isFalse hsome => exact if_neg fun hrange => h ⟨hsome, hrange⟩

section
variable {s : State} (hs : s.fatal = false)
include hs

theorem exec_of_fails {i : Instr} (h : CommandFails s i) :
    exec i s = raise (commandError i) s := by
  cases i <;> dsimp only [exec] <;> refine (unlessHalted_running hs _).trans ?_
  case clear => exact h.elim
  case readSamples stereo => exact extract_of_outOfRange h
  case readFloatSamples stereo => exact extract_of_outOfRange h
  all_goals exact if_pos h

theorem exec_of_not_fails {i : Instr} (h : ¬ CommandFails s i) :
    exec i s = finish (commandEffect s i) := by
  cases i <;> dsimp only [exec] <;> refine (unlessHalted_running hs _).trans ?_
  case clear => rfl
  case readSamples stereo => exact extract_of_inRange rfl h
  case readFloatSamples stereo => exact extract_of_inRange rfl h
  all_goals exact if_neg h

end

/-- No command faults or is refused. -/
theorem exec_next (i : Instr) (s : State) : ∃ t, exec i s = .next t := by
  obtain ⟨u, hfinish⟩ | ⟨c, hraise⟩ := endsCommand_exec i s
  · exact ⟨_, hfinish⟩
  · exact ⟨_, hraise⟩

/-- The three answers of a command. -/
theorem exec_cases {i : Instr} {s t : State} (h : exec i s = .next t) :
    (s.fatal = true ∧ t = { s with code := 0x07#8 }) ∨
    (s.fatal = false ∧ CommandFails s i ∧
      t = { s with code := (commandError i).bits, fatal := (commandError i).setsFatal }) ∨
    (s.fatal = false ∧ ¬ CommandFails s i ∧ t = { commandEffect s i with code := 0#8 }) := by
  by_cases hhalted : s.fatal = true
  · exact .inl ⟨hhalted, (Host.Outcome.next.inj ((exec_halted i hhalted).symm.trans h)).symm⟩
  · have hs : s.fatal = false := Bool.eq_false_of_not_eq_true hhalted
    by_cases hfails : CommandFails s i
    · have ht := raise_next ((exec_of_fails hs hfails).symm.trans h)
      rw [hs, Bool.false_or] at ht
      exact .inr (.inl ⟨hs, hfails, ht⟩)
    · exact .inr (.inr ⟨hs, hfails, finish_next ((exec_of_not_fails hs hfails).symm.trans h)⟩)

/-- A command that ends in OK had its effect. -/
theorem commandEffect_of_exec_ok {i : Instr} {s t : State} (h : exec i s = .next t)
    (hok : t.code = 0#8) (hi : commandError i ≠ .ok) :
    s.fatal = false ∧ ¬ CommandFails s i ∧ t = { commandEffect s i with code := 0#8 } := by
  obtain ⟨-, ht⟩ | ⟨-, -, ht⟩ | hsuccess := exec_cases h
  · rw [ht] at hok
    cases hok
  · rw [ht] at hok
    cases i <;> cases hok
    exact absurd rfl hi
  · exact hsuccess

/-- Settles O33: no command stops the machine, and it answers with its effect and OK, or with its
own error. -/
theorem everyCommandEndsInItsCodes : Obligations.EveryCommandEndsInItsCodes := by
  intro i s hs
  obtain ⟨t, hexec⟩ := exec_next i s
  refine ⟨t, hexec, ?_⟩
  obtain ⟨hhalted, -⟩ | ⟨-, hfails, ht⟩ | ⟨-, -, ht⟩ := exec_cases hexec
  · simp [hs] at hhalted
  · cases i <;> subst ht
    case clear => rfl
    all_goals exact .inr rfl
  · cases i <;> subst ht
    case clear => rfl
    all_goals exact .inl rfl

/-! ### What a command writes and reads (10_state.md R21, R22, R36) -/

/-- Settles O35: a refusal writes CODE, an error CODE and FATAL, and the effect of each command
writes its own fields. -/
theorem onlyTheListedCommandsWrite : Obligations.OnlyTheListedCommandsWrite := by
  intro i s t hexec
  obtain ⟨-, rfl⟩ | ⟨hs, -, rfl⟩ | ⟨-, -, rfl⟩ := exec_cases hexec
  · simp
  · cases i <;> simp [commandError, Code.setsFatal, hs]
  · cases i <;> simp [commandEffect, clearState, writeSamples16, writeSamplesF, drainState]

theorem withBuf_withAudio (s : State) (acc : Word) (m b b' : Cells 32) :
    (withAudio s acc m).withBuf b = withAudio (s.withBuf b') acc b := rfl

section
variable {i : Instr} (hi : ∀ st, i ≠ .readSamples st ∧ i ≠ .readFloatSamples st)
include hi

/-- No check but that of the reads depends on INTEGRATOR or BUF. -/
theorem commandFails_withAudio_iff (s : State) (acc : Word) (m : Cells 32) :
    CommandFails (withAudio s acc m) i ↔ CommandFails s i := by
  cases i
  case readSamples st => exact absurd rfl (hi st).1
  case readFloatSamples st => exact absurd rfl (hi st).2
  all_goals exact Iff.rfl

/-- What another command does to the rest of the state does not depend on INTEGRATOR or BUF. -/
theorem commandEffect_withAudio (s : State) (acc : Word) (m : Cells 32) :
    ∃ acc' m', commandEffect (withAudio s acc m) i = withAudio (commandEffect s i) acc' m' := by
  cases i
  case readSamples st => exact absurd rfl (hi st).1
  case readFloatSamples st => exact absurd rfl (hi st).2
  case clear => exact ⟨0#32, [], rfl⟩
  case setRates => exact ⟨acc, m, rfl⟩
  case addDelta => exact ⟨acc, _, withBuf_withAudio s acc m _ _⟩
  case addDeltaFast => exact ⟨acc, _, withBuf_withAudio s acc m _ _⟩
  case endFrame => exact ⟨acc, m, rfl⟩
  case clocksNeeded => exact ⟨acc, m, rfl⟩

end

/-- Settles O36: the halted check, the command's own check and its effect each do the same on both
states. -/
theorem audioStateIsHiddenFromOtherCommands : Obligations.AudioStateIsHiddenFromOtherCommands := by
  intro i s t acc m hi hexec
  have hchecks := commandFails_withAudio_iff hi s acc m
  obtain ⟨hhalted, rfl⟩ | ⟨hs, hfails, rfl⟩ | ⟨hs, hgood, rfl⟩ := exec_cases hexec
  · exact ⟨acc, m, exec_halted (s := withAudio s acc m) i hhalted⟩
  · have herror := exec_of_fails (s := withAudio s acc m) hs (hchecks.mpr hfails)
    refine ⟨acc, m, herror.trans ?_⟩
    simp [raise, withAudio, hs, State.withFatal, State.withCode, State.withIntegrator,
      State.withBuf]
  · obtain ⟨acc', m', heffect⟩ := commandEffect_withAudio hi s acc m
    have hsuccess := exec_of_not_fails (s := withAudio s acc m) hs (mt hchecks.mp hgood)
    rw [heffect] at hsuccess
    exact ⟨acc', m', hsuccess⟩

end Sys2Proof.Machine
end

section
/-! PROOFS. A successful SET_RATES (spec/40_rate_converter.md R90, R91): FACTOR keeps its lower
bound (spec/10_state.md R37), and an exact quotient is not rounded. -/

namespace Sys2Proof.Machine

/-- The ratio check of R90 is what bounds FACTOR from below. -/
theorem two_pow_32_le_rateFactor {cr sr : Nat} (h : ¬ RatesRejected cr sr) :
    2 ^ 32 ≤ rateFactor cr sr := by
  simp only [RatesRejected, Config.maxRatio, not_or] at h
  obtain ⟨hcr, -, hratio, -⟩ := h
  have hpos : 0 < cr := Nat.pos_of_ne_zero hcr
  have hlt : 2 ^ 32 - 1 < rateFactor cr sr := by
    rw [← Nat.not_le, rateFactor_le_iff hpos]
    omega
  exact hlt

theorem rateFactor_mul_of_dvd {cr sr : Nat} (hpos : 0 < cr) (hdvd : cr ∣ 2 ^ 52 * sr) :
    rateFactor cr sr * cr = 2 ^ 52 * sr := by
  have hquotient : 2 ^ 52 * sr / cr * cr = 2 ^ 52 * sr := Nat.div_mul_cancel hdvd
  have hle : rateFactor cr sr ≤ 2 ^ 52 * sr / cr := (rateFactor_le_iff hpos).mpr hquotient.ge
  apply Nat.le_antisymm
  · exact (Nat.mul_le_mul_right cr hle).trans hquotient.le
  · exact (rateFactor_le_iff hpos).mp le_rfl

/-- Settles O11: a SET_RATES that ends in OK stored the ceiling of an accepted pair of rates. -/
theorem setRatesFactorRange : Obligations.SetRatesFactorRange := by
  intro s t _ hexec hok
  obtain ⟨-, haccepted, rfl⟩ := commandEffect_of_exec_ok hexec hok (by decide)
  change 2 ^ 32 ≤ (BitVec.ofNat 64 (rateFactor _ _)).toNat ∧
    (_ → (BitVec.ofNat 64 (rateFactor _ _)).toNat * _ = _)
  rw [toNat_rateFactor_of_accepted haccepted]
  have hpos : 0 < s.arg0.toNat := Nat.pos_of_ne_zero fun h => haccepted (.inl h)
  exact ⟨two_pow_32_le_rateFactor haccepted, rateFactor_mul_of_dvd hpos⟩

end Sys2Proof.Machine
end

section
/-! PROOFS. What an access of the host does, said once over all accesses: a fault where the CORE has
nothing, a command for a store to CMD, and else its effect (spec/20_memory.md R50-R53). -/

namespace Sys2Proof.Machine

/-- The state a store leaves that reaches a register other than CMD: only ARG0 and ARG1 are
writable (44_control.md R166). -/
def setOperand (s : State) (v : Word) : Reg → State
  | .arg0 => s.withArg0 v
  | .arg1 => s.withArg1 v
  | .cmd => s
  | .status => s
  | .resultLo => s
  | .resultHi => s
  | .avail => s
  | .reserved => s

/-- The state an access leaves that names something the CORE has and is no store to CMD. -/
def accessEffect (s : State) : HostAction → State
  | .store addr width v => (regAccess (addr - s.params.regBase) width).elim s (setOperand s v)
  | .load addr width =>
    returnValue s ((regAccess (addr - s.params.regBase) width).elim 0#32 (readReg s))
  | .check =>
    (returnValue s (readReg s .status)).withScript (if s.code = Code.ok.bits then s.script else [])
  | .writeOut16 i v => s.withOut16 (cellPut s.out16 i v)
  | .readOut16 i => returnValue s ((out16Read s.out16 i).setWidth 32)
  | .writeOutF i v => s.withOutF (cellPut s.outF i v)
  | .readOutF i => returnValue s (outFRead s.outF i)
  | .assertReset => resetEvent s

theorem performAction_of_absent {s : State} {a : HostAction} (h : ¬ AccessExists s.params a) :
    ∃ f, performAction a s = .fault f := by
  cases a
  case store addr width v => exact ⟨_, if_pos (Nat.not_le.mp h)⟩
  case load addr width => exact ⟨_, if_pos (Nat.not_le.mp h)⟩
  case check => exact absurd trivial h
  case assertReset => exact absurd trivial h
  all_goals exact ⟨_, if_neg h⟩

/-- A store at REG_BASE is the one access that runs a command (10_state.md R26). -/
theorem performAction_store_cmd (s : State) (v : Word) :
    performAction (.store s.params.regBase 32 v) s = performCommand v s :=
  hostStore_register s .cmd v

theorem regAt_eq_cmd_iff (off : Nat) : regAt off = .cmd ↔ off = 0 := by
  rw [regAt_eq_ite]
  split_ifs <;> simp_all

/-- The register an access reaches is CMD only with its own address and width. -/
theorem regAccess_eq_cmd_iff (off width : Nat) :
    regAccess off width = some .cmd ↔ off = 0 ∧ width = 32 := by
  rw [regAccess]
  split
  case isTrue h => simp [regAt_eq_cmd_iff, h.1]
  case isFalse h =>
    refine iff_of_false (by simp) ?_
    rintro ⟨rfl, rfl⟩
    exact h ⟨rfl, rfl⟩

theorem writeReg_eq_setOperand (s : State) {r : Reg} (h : r ≠ .cmd) (v : Word) :
    writeReg s r v = .next (setOperand s v r) := by
  cases r
  case cmd => exact absurd rfl h
  all_goals rfl

theorem performAction_of_exists {s : State} {a : HostAction} (h : AccessExists s.params a)
    (hcmd : ∀ v, a ≠ .store s.params.regBase 32 v) :
    performAction a s = .next (accessEffect s a) := by
  cases a
  case store addr width v =>
    refine (if_neg (Nat.not_lt.mpr h)).trans ?_
    cases hreg : regAccess (addr - s.params.regBase) width with
    | none => simp [accessEffect, hreg]
    | some r =>
      have hr : r ≠ .cmd := by
        rintro rfl
        obtain ⟨hoff, rfl⟩ := (regAccess_eq_cmd_iff _ _).mp hreg
        have haddr : addr = s.params.regBase := Nat.le_antisymm (Nat.sub_eq_zero_iff_le.mp hoff) h
        exact hcmd v (haddr ▸ rfl)
      simp [accessEffect, hreg, writeReg_eq_setOperand s hr]
  case load addr width =>
    refine (if_neg (Nat.not_lt.mpr h)).trans ?_
    cases hreg : regAccess (addr - s.params.regBase) width with
    | none => simp [accessEffect, hreg]
    | some r => simp [accessEffect, hreg]
  case check =>
    simp only [performAction, accessEffect]
    split
    · rfl
    · rfl
  case assertReset => rfl
  all_goals exact if_pos h

/-- An access that the CORE has is answered by a next state. -/
theorem performAction_next {s : State} {a : HostAction} (h : AccessExists s.params a) :
    ∃ t, performAction a s = .next t := by
  by_cases hcmd : ∃ v, a = .store s.params.regBase 32 v
  · obtain ⟨v, rfl⟩ := hcmd
    rw [performAction_store_cmd]
    obtain ⟨u, hfinish⟩ | ⟨c, hraise⟩ := endsCommand_performCommand v s
    · exact ⟨_, hfinish⟩
    · exact ⟨_, hraise⟩
  · exact ⟨_, performAction_of_exists h (by simpa using hcmd)⟩

/-- What an access can be that is answered by a next state. -/
theorem performAction_cases {s t : State} {a : HostAction} (h : performAction a s = .next t) :
    AccessExists s.params a ∧
      ((∃ v, a = .store s.params.regBase 32 v ∧ performCommand v s = .next t) ∨
        ((∀ v, a ≠ .store s.params.regBase 32 v) ∧ t = accessEffect s a)) := by
  have hexists : AccessExists s.params a := by
    by_contra habsent
    obtain ⟨f, hfault⟩ := performAction_of_absent habsent
    rw [hfault] at h
    cases h
  refine ⟨hexists, ?_⟩
  by_cases hcmd : ∃ v, a = .store s.params.regBase 32 v
  · obtain ⟨v, rfl⟩ := hcmd
    exact .inl ⟨v, rfl, (performAction_store_cmd s v).symm.trans h⟩
  · rw [not_exists] at hcmd
    rw [performAction_of_exists hexists hcmd] at h
    exact .inr ⟨hcmd, (Host.Outcome.next.inj h).symm⟩

/-- Settles O48: an access that exists is answered by a next state, and every other one faults. -/
theorem onlyAbsentAccessesFault : Obligations.OnlyAbsentAccessesFault := by
  refine ⟨fun s r hrefused => ?refusal, fun a rest s hscript => ?fault⟩
  case refusal =>
    cases hscript : s.script with
    | nil =>
      simp [step, hostStep, hscript] at hrefused
    | cons a rest =>
      rw [step_cons hscript] at hrefused
      by_cases hexists : AccessExists s.params a
      · obtain ⟨t, hnext⟩ := performAction_next (s := s.withScript rest) hexists
        simp [hnext] at hrefused
      · obtain ⟨f, hfault⟩ := performAction_of_absent (s := s.withScript rest) hexists
        simp [hfault] at hrefused
  case fault =>
    rw [step_cons hscript]
    refine ⟨fun ⟨f, hfault⟩ hexists => ?_, performAction_of_absent (s := s.withScript rest)⟩
    obtain ⟨t, hnext⟩ := performAction_next (s := s.withScript rest) hexists
    simp [hnext] at hfault

/-! ### The hidden registers (10_state.md R36) -/

/-- s with other values in the four pieces of state that the host cannot read. -/
def withHidden (s : State) (f o : DWord) (acc : Word) (m : Cells 32) : State :=
  { s with factor := f, offset := o, integrator := acc, buf := m }

theorem setOperand_withHidden (s : State) (f o : DWord) (acc : Word) (m : Cells 32) (v : Word)
    (r : Reg) :
    setOperand (withHidden s f o acc m) v r = withHidden (setOperand s v r) f o acc m := by
  cases r <;> rfl

theorem readReg_withHidden (s : State) (f o : DWord) (acc : Word) (m : Cells 32) :
    readReg (withHidden s f o acc m) = readReg s := by
  funext r
  cases r <;> rfl

/-- No access but a reset and a command looks at the hidden registers or writes them. -/
theorem accessEffect_withHidden (s : State) (f o : DWord) (acc : Word) (m : Cells 32)
    {a : HostAction} (ha : a ≠ .assertReset) :
    accessEffect (withHidden s f o acc m) a = withHidden (accessEffect s a) f o acc m := by
  cases a
  case store addr width v =>
    simp only [accessEffect]
    change Option.elim (regAccess (addr - s.params.regBase) width) _ _ = _
    cases regAccess (addr - s.params.regBase) width with
    | none => rfl
    | some r => exact setOperand_withHidden s f o acc m v r
  case load addr width =>
    simp only [accessEffect, readReg_withHidden]
    rfl
  case assertReset => exact absurd rfl ha
  all_goals rfl

/-- Settles O37: the effect of such an access on the other state is its effect here with the hidden
registers exchanged; exchanged for their own values, it says that they are kept. -/
theorem hiddenStateIsNotReadable : Obligations.HiddenStateIsNotReadable := by
  intro a s t f o acc m hstore hreset hnext
  have hcmd : ∀ v, a ≠ .store s.params.regBase 32 v := fun v hv => hstore _ v hv rfl
  obtain ⟨hexists, ⟨v, hv, -⟩ | ⟨-, rfl⟩⟩ := performAction_cases hnext
  · exact absurd hv (hcmd v)
  have hkept : accessEffect s a
      = withHidden (accessEffect s a) s.factor s.offset s.integrator s.buf :=
    accessEffect_withHidden s s.factor s.offset s.integrator s.buf hreset
  refine ⟨?_, (congrArg State.factor hkept :), (congrArg State.offset hkept :),
    (congrArg State.integrator hkept :), (congrArg State.buf hkept :)⟩
  exact (performAction_of_exists (s := withHidden s f o acc m) hexists hcmd).trans
    (congrArg _ (accessEffect_withHidden s f o acc m hreset))

end Sys2Proof.Machine
end

section
/-! PROOFS. The invariant of the CORE (spec/10_state.md R27, R37, spec/00_scope.md R8): it holds at
reset, and the answer of every command and the effect of every access keep it. -/

namespace Sys2Proof.Machine

/-! ### At reset -/

/-- Settles O17: a check of the table of R60, row by row. -/
theorem defaultKernelKeepsTheUnitStep : Obligations.DefaultKernelKeepsTheUnitStep := by
  refine ⟨?_, ?_, ?_⟩ <;> decide

theorem registersLegal_resetEvent (s : State) : RegistersLegal (resetEvent s) := by
  refine ⟨Nat.zero_le _, ?_, le_of_eq rfl⟩
  rw [toNat_offset_resetEvent]
  decide

theorem statusLegal_of_running {s : State} (hs : s.fatal = false) (hcode : s.code.toNat ≤ 7) :
    StatusLegal s :=
  ⟨hcode, fun hhalted => absurd hhalted (by simp [hs])⟩

theorem bufWf_nil (p : Config.Params) : BufWf p [] := ⟨List.Pairwise.nil, by simp⟩

theorem outWf_nil {w : Nat} (len : Nat) : OutWf len ([] : Cells w) := ⟨List.Pairwise.nil, by simp⟩

theorem legal_resetEvent {s : State} (hs : Legal s) : Legal (resetEvent s) := by
  obtain ⟨hparams, -, -, -, hout16, houtF⟩ := hs
  exact ⟨hparams, registersLegal_resetEvent s, statusLegal_of_running rfl (Nat.zero_le _),
    bufWf_nil _, hout16, houtF⟩

theorem legal_resetWith {p : Config.Params} (hp : p.Legal) : Legal (State.resetWith p) := by
  refine ⟨hp, ⟨Nat.zero_le _, ?_, le_of_eq rfl⟩, statusLegal_of_running rfl (Nat.zero_le _),
    bufWf_nil p, outWf_nil _, outWf_nil _⟩
  change Config.offsetReset.toNat < Config.timeUnit
  decide

theorem legal_default : Config.Params.default.Legal :=
  ⟨by decide, by decide, rfl, defaultKernelKeepsTheUnitStep.1⟩

/-- Settles O46: the values of R190 meet every bound, and the parameters of log 2 are legal. -/
theorem resetStateIsLegal : Obligations.ResetStateIsLegal :=
  ⟨fun _ => legal_resetWith, legal_resetWith legal_default⟩

/-! ### Updates of the state -/

section
variable {s : State} (hs : Legal s)
include hs

theorem legal_withCode {v : BitVec 8} (hv : v.toNat ≤ 7)
    (hfatal : s.fatal = true → v = Code.frameOverflow.bits ∨ v = Code.halted.bits) :
    Legal (s.withCode v) := by
  obtain ⟨hparams, hregisters, -, hmemory⟩ := hs
  exact ⟨hparams, hregisters, ⟨hv, hfatal⟩, hmemory⟩

theorem legal_withAvail {v : Word} (hv : v.toNat ≤ s.params.capacity) : Legal (s.withAvail v) := by
  obtain ⟨hparams, ⟨-, hoffset, hfactor⟩, hstatus, hmemory⟩ := hs
  exact ⟨hparams, ⟨hv, hoffset, hfactor⟩, hstatus, hmemory⟩

theorem legal_withOffset {v : DWord} (hv : v.toNat < Config.timeUnit) : Legal (s.withOffset v) := by
  obtain ⟨hparams, ⟨havail, -, hfactor⟩, hstatus, hmemory⟩ := hs
  exact ⟨hparams, ⟨havail, hv, hfactor⟩, hstatus, hmemory⟩

theorem legal_withFactor {v : DWord} (hv : 2 ^ 32 ≤ v.toNat) : Legal (s.withFactor v) := by
  obtain ⟨hparams, ⟨havail, hoffset, -⟩, hstatus, hmemory⟩ := hs
  exact ⟨hparams, ⟨havail, hoffset, hv⟩, hstatus, hmemory⟩

theorem legal_withResult (v : DWord) : Legal (s.withResult v) := hs

theorem legal_withIntegrator (v : Word) : Legal (s.withIntegrator v) := hs

theorem legal_withBuf {m : Cells 32} (hm : BufWf s.params m) : Legal (s.withBuf m) := by
  obtain ⟨hparams, hregisters, hstatus, -, hout16, houtF⟩ := hs
  exact ⟨hparams, hregisters, hstatus, hm, hout16, houtF⟩

theorem legal_withOut16 {m : Cells 16} (hm : OutWf s.params.out16Len m) :
    Legal (s.withOut16 m) := by
  obtain ⟨hparams, hregisters, hstatus, hbuf, -, houtF⟩ := hs
  exact ⟨hparams, hregisters, hstatus, hbuf, hm, houtF⟩

theorem legal_withOutF {m : Cells 32} (hm : OutWf s.params.outFLen m) : Legal (s.withOutF m) := by
  obtain ⟨hparams, hregisters, hstatus, hbuf, hout16, -⟩ := hs
  exact ⟨hparams, hregisters, hstatus, hbuf, hout16, hm⟩

theorem bufWf_of_legal : BufWf s.params s.buf := by
  obtain ⟨-, -, -, hbuf, -, -⟩ := hs
  exact hbuf

theorem outWf_out16_of_legal : OutWf s.params.out16Len s.out16 := by
  obtain ⟨-, -, -, -, hout16, -⟩ := hs
  exact hout16

theorem outWf_outF_of_legal : OutWf s.params.outFLen s.outF := by
  obtain ⟨-, -, -, -, -, houtF⟩ := hs
  exact houtF

theorem avail_le_capacity_of_legal : s.avail.toNat ≤ s.params.capacity := by
  obtain ⟨-, ⟨havail, -, -⟩, -⟩ := hs
  exact havail

end

/-! ### Commands -/

@[simp] theorem drainState_params (s : State) : (drainState s).params = s.params := by
  simp [drainState]

@[simp] theorem drainState_arg1 (s : State) : (drainState s).arg1 = s.arg1 := by
  simp [drainState]

@[simp] theorem drainState_out16 (s : State) : (drainState s).out16 = s.out16 := by
  simp [drainState]

@[simp] theorem drainState_outF (s : State) : (drainState s).outF = s.outF := by
  simp [drainState]

theorem fatal_commandEffect (s : State) (i : Instr) : (commandEffect s i).fatal = s.fatal := by
  cases i <;> simp [commandEffect, clearState, writeSamples16, writeSamplesF, drainState]

/-- A count that passes a check against CAPACITY passes it in the width of AVAIL. -/
theorem toNat_ofNat_le (n : Nat) : (BitVec.ofNat 32 n).toNat ≤ n := by
  rw [BitVec.toNat_ofNat]
  exact Nat.mod_le _ _

section
variable {s : State}

/-- The run of a read that passes the check of R152 lies in its output memory. -/
theorem outWf_writeRun_readRun {w outLen : Nat} {m : Cells w} (hm : OutWf outLen m)
    (encoding : Int → BitVec w) {stereo : Bool}
    (h : ¬ (readCount s ≠ 0 ∧ OutOfRange outLen stereo s)) :
    OutWf outLen
      (writeRun m (operand1 s) (outStep stereo) ((readRun s).1.map encoding)) := by
  refine outWf_writeRun _ _ hm fun hrun => ?_
  rw [List.length_map, length_readRun]
  have hsome : readCount s ≠ 0 := by
    rw [← length_readRun, ← List.length_map (f := encoding)]
    exact mt List.length_eq_zero_iff.mp hrun
  exact Nat.not_le.mp fun hrange => h ⟨hsome, hrange⟩

theorem legal_clearState (hs : Legal s) : Legal (clearState s) := by
  refine legal_withBuf (legal_withIntegrator (legal_withAvail (legal_withOffset hs ?_) ?_) _)
    (bufWf_nil _)
  · exact initialPhase_lt_timeUnit s.factor
  · exact Nat.zero_le _

theorem legal_drainState (hs : Legal s) : Legal (drainState s) := by
  refine legal_withResult (legal_withAvail (legal_withBuf (legal_withIntegrator hs _) ?_) ?_) _
  · exact bufWf_shiftCells (bufWf_of_legal hs) _ _
  · exact (toNat_ofNat_le _).trans ((Nat.sub_le _ _).trans (avail_le_capacity_of_legal hs))

/-- The check of a command is what keeps its effect within the bounds. -/
theorem legal_commandEffect (hs : Legal s) {i : Instr} (hi : ¬ CommandFails s i) :
    Legal (commandEffect s i) := by
  cases i
  case clear => exact legal_clearState hs
  case setRates =>
    refine legal_withFactor hs ?_
    exact (two_pow_32_le_rateFactor hi).trans_eq (toNat_rateFactor_of_accepted hi).symm
  case addDelta =>
    refine legal_withBuf hs (bufWf_addCells _ (bufWf_of_legal hs) ?_)
    rw [length_preciseTaps]
    exact targetCell_le hi
  case addDeltaFast =>
    refine legal_withBuf hs (bufWf_addCells _ (bufWf_of_legal hs) ?_)
    have hfits : targetCell s (operand0 s) + 16 ≤ bufLen s.params := targetCell_le hi
    rw [length_fastTaps]
    omega
  case endFrame =>
    refine legal_withOffset (legal_withAvail hs ?_) ?_
    · exact (toNat_ofNat_le _).trans (Nat.not_lt.mp hi)
    · rw [BitVec.toNat_ofNat]
      exact lt_of_le_of_lt (Nat.mod_le _ _) (frameRemainder_lt s (operand0 s))
  case clocksNeeded => exact legal_withResult hs _
  case readSamples stereo =>
    refine legal_withOut16 (legal_drainState hs) ?_
    rw [drainState_params, drainState_out16, operand1, drainState_arg1]
    exact outWf_writeRun_readRun (outWf_out16_of_legal hs) pcm16 hi
  case readFloatSamples stereo =>
    refine legal_withOutF (legal_drainState hs) ?_
    rw [drainState_params, drainState_outF, operand1, drainState_arg1]
    exact outWf_writeRun_readRun (outWf_outF_of_legal hs) float32 hi

/-- The codes of R170 are 0 to 7. -/
theorem Code.toNat_bits_le (c : Code) : c.bits.toNat ≤ 7 := by
  cases c <;> decide

/-- The one error of a command that sets FATAL is ERR_FRAME_OVERFLOW (R170). -/
theorem Code.bits_of_setsFatal {c : Code} (h : c.setsFatal = true) :
    c.bits = Code.frameOverflow.bits := by
  cases c
  case frameOverflow => rfl
  all_goals cases h

theorem legal_exec {t : State} (hs : Legal s) {i : Instr} (h : exec i s = .next t) : Legal t := by
  obtain ⟨-, rfl⟩ | ⟨-, -, rfl⟩ | ⟨hrunning, hi, rfl⟩ := exec_cases h
  · exact legal_withCode (v := Code.halted.bits) hs (by decide) fun _ => .inr rfl
  · obtain ⟨hparams, hregisters, -, hmemory⟩ := hs
    exact ⟨hparams, hregisters,
      ⟨Code.toNat_bits_le _, fun hfatal => .inl (Code.bits_of_setsFatal hfatal)⟩, hmemory⟩
  · refine legal_withCode (legal_commandEffect hs hi) (Nat.zero_le _) fun hhalted => ?_
    simp [fatal_commandEffect, hrunning] at hhalted

/-- An illegal word writes a code of R170 and nothing else. -/
theorem legal_performCommand {t : State} (hs : Legal s) {w : Word}
    (h : performCommand w s = .next t) : Legal t := by
  cases hw : decode w with
  | ok i => exact legal_exec hs ((performCommand_of_decode_ok hw s).symm.trans h)
  | error r =>
    rw [performCommand_of_illegal (by simp [hw]), execIllegal_eq] at h
    cases h
    by_cases hhalted : s.fatal = true
    · rw [if_pos hhalted]
      exact legal_withCode (v := Code.halted.bits) hs (by decide) fun _ => .inr rfl
    · rw [if_neg hhalted]
      exact legal_withCode (v := Code.illegal.bits) hs (by decide) fun h => absurd h hhalted

/-! ### Accesses of the host -/

theorem legal_accessEffect (hs : Legal s) {a : HostAction} (ha : AccessExists s.params a) :
    Legal (accessEffect s a) := by
  cases a
  case store addr width v =>
    simp only [accessEffect]
    cases regAccess (addr - s.params.regBase) width with
    | none => exact hs
    | some r => cases r <;> exact hs
  case load addr width => exact hs
  case check => exact hs
  case writeOut16 i v => exact legal_withOut16 hs (outWf_cellPut (outWf_out16_of_legal hs) ha v)
  case readOut16 i => exact hs
  case writeOutF i v => exact legal_withOutF hs (outWf_cellPut (outWf_outF_of_legal hs) ha v)
  case readOutF i => exact hs
  case assertReset => exact legal_resetEvent hs

theorem legal_performAction {t : State} (hs : Legal s) {a : HostAction}
    (h : performAction a s = .next t) : Legal t := by
  obtain ⟨hexists, ⟨v, -, hcommand⟩ | ⟨-, rfl⟩⟩ := performAction_cases h
  · exact legal_performCommand hs hcommand
  · exact legal_accessEffect hs hexists

end

theorem step_nil {s : State} (h : s.script = []) : step s = .next s := by
  simp only [step, hostStep, h]

/-- Settles O8: a step does nothing but perform the next access. -/
theorem idleStepHoldsTheState : Obligations.IdleStepHoldsTheState := fun _ => step_nil

/-- Settles O47: a step performs the next access, which keeps the invariant; the script is no part
of it. -/
theorem stepKeepsLegal : Obligations.StepKeepsLegal := by
  intro s t hs hstep
  cases hscript : s.script with
  | nil =>
    rw [step_nil hscript] at hstep
    cases hstep
    exact hs
  | cons a rest =>
    rw [step_cons hscript] at hstep
    exact legal_performAction (s := s.withScript rest) hs hstep

/-- Settles O49: an access that exists is answered by a next state, and the step keeps the
invariant. -/
theorem legalMachineIsSafe : Obligations.LegalMachineIsSafe := by
  intro s hs hexists
  have hnext : ∃ t, step s = .next t := by
    cases hscript : s.script with
    | nil => exact ⟨s, step_nil hscript⟩
    | cons a rest =>
      rw [step_cons hscript]
      exact performAction_next (s := s.withScript rest) (hexists a (by simp [hscript]))
  obtain ⟨t, hstep⟩ := hnext
  exact ⟨t, hstep, stepKeepsLegal s t hs hstep⟩

/-! ### Construction (30_encoding.md R77) -/

/-- Settles O50: elaboration accepts exactly the legal parameters, of which only the bounds of
CAPACITY are left to check. -/
theorem constructionNeedsLegalCapacity : Obligations.ConstructionNeedsLegalCapacity := by
  intro p hlengths hbase hkernel
  have hrefused (h : ¬ p.CapacityLegal) : construct p = none := if_neg fun hp => h hp.1
  simp only [Config.Params.CapacityLegal, Config.bufExtra] at hrefused
  refine ⟨fun hlo hhi => ?legal, fun hzero => ?zero, fun hlarge => ?large⟩
  case legal => exact if_pos ⟨⟨hlo, hhi⟩, hlengths, hbase, hkernel⟩
  case zero => exact hrefused (by omega)
  case large => exact hrefused (by omega)

end Sys2Proof.Machine
end

section
/-! PROOFS. What the host sees (spec/20_memory.md R55, R56, R62): bytes of whole values, and an
output element that reads back. -/

namespace Sys2Proof.Machine

/-! ### Bytes (R55) -/

/-- Settles O41: byte k of an element or a register is byte k of its value, and the bytes of a value
make it up; RESULT_LO and RESULT_HI are the two halves of RESULT. -/
theorem hostBytesAreLittleEndian : Obligations.HostBytesAreLittleEndian := by
  intro s i
  refine ⟨?out16, ?outF, ?reg, ?result⟩
  case out16 => simp [out16Byte, Nat.mul_add_div, halfOfBytes_littleEndianByte]
  case outF => simp [outFByte, Nat.mul_add_div, wordOfBytes_littleEndianByte]
  case reg => simp [regByte, wordOfBytes_littleEndianByte]
  case result => exact BitVec.extractLsb'_append_extractLsb'

/-! ### Steps and runs -/

/-- A step whose access exists and is no command has the effect of the access. -/
theorem step_of_exists {s : State} {a : HostAction} {rest : List HostAction}
    (hscript : s.script = a :: rest) (h : AccessExists s.params a)
    (hcmd : ∀ v, a ≠ .store s.params.regBase 32 v) :
    step s = .next (accessEffect (s.withScript rest) a) :=
  (step_cons hscript).trans (performAction_of_exists (s := s.withScript rest) h hcmd)

theorem run_succ {s t : State} (h : step s = .next t) (k : Nat) :
    Host.Core.run core (k + 1) s = Host.Core.run core k t := by
  have hstep : core.step s = .next t := h
  simp only [Host.Core.run, hstep]

@[simp] theorem run_zero (s : State) : Host.Core.run core 0 s = .next s := rfl

/-! ### Output elements (R56) -/

theorem out16Read_of_cellFind {m : Cells 16} {i : Nat} {v : Half} (h : cellFind m i = some v) :
    out16Read m i = v := by
  rw [out16Read, h, Option.getD_some]

theorem outFRead_of_cellFind {m : Cells 32} {i : Nat} {v : Word} (h : cellFind m i = some v) :
    outFRead m i = v := by
  rw [outFRead, h, Option.getD_some]

theorem step_readOut16 {s : State} {i : Nat} {v : Half} {rest : List HostAction}
    (hi : i < s.params.out16Len) (hv : cellFind s.out16 i = some v)
    (hscript : s.script = .readOut16 i :: rest) :
    step s = .next { s with script := rest, reads := s.reads ++ [v.setWidth 32] } := by
  have hread : out16Read (s.withScript rest).out16 i = v := out16Read_of_cellFind hv
  rw [step_of_exists hscript hi (by simp), accessEffect, hread]
  rfl

theorem step_readOutF {s : State} {i : Nat} {v : Word} {rest : List HostAction}
    (hi : i < s.params.outFLen) (hv : cellFind s.outF i = some v)
    (hscript : s.script = .readOutF i :: rest) :
    step s = .next { s with script := rest, reads := s.reads ++ [v] } := by
  have hread : outFRead (s.withScript rest).outF i = v := outFRead_of_cellFind hv
  rw [step_of_exists hscript hi (by simp), accessEffect, hread]
  rfl

/-- Settles O42: a read of an element returns what is listed there, and a write lists its value at
its own index alone. -/
theorem outputElementReadsBack : Obligations.OutputElementReadsBack := by
  intro s i v u rest
  refine ⟨fun hi hscript => ?out16, fun hi hscript => ?outF, fun hi => step_readOut16 hi,
    fun hi => step_readOutF hi⟩
  case out16 =>
    have hwrite := step_of_exists hscript hi (by simp)
    have hread := step_readOut16
      (s := accessEffect (s.withScript (.readOut16 i :: rest)) (.writeOut16 i v))
      hi (cellFind_cellPut_self s.out16 i v) rfl
    exact ⟨_, (run_succ hwrite 1).trans (run_succ hread 0), rfl,
      fun j hj => (cellFind_cellPut s.out16 i j v).trans (if_neg hj)⟩
  case outF =>
    have hwrite := step_of_exists hscript hi (by simp)
    have hread := step_readOutF
      (s := accessEffect (s.withScript (.readOutF i :: rest)) (.writeOutF i u))
      hi (cellFind_cellPut_self s.outF i u) rfl
    exact ⟨_, (run_succ hwrite 1).trans (run_succ hread 0), rfl,
      fun j hj => (cellFind_cellPut s.outF i j u).trans (if_neg hj)⟩

end Sys2Proof.Machine
end

section
/-! PROOFS. Statements of a host script (spec/30_encoding.md R76, R77): a command statement runs its
command on its operands, CHECK ends the script on an error, and construction with rates
(spec/70_reset_and_hazards.md R192) is both of them. -/

namespace Sys2Proof.Machine

theorem run_storeTo_arg0 {s : State} {v : Word} {rest : List HostAction}
    (h : s.script = storeTo s.params .arg0 v :: rest) (k : Nat) :
    Host.Core.run core (k + 1) s = Host.Core.run core k ((s.withScript rest).withArg0 v) :=
  run_succ (step_store_register (r := .arg0) h) k

theorem run_storeTo_arg1 {s : State} {v : Word} {rest : List HostAction}
    (h : s.script = storeTo s.params .arg1 v :: rest) (k : Nat) :
    Host.Core.run core (k + 1) s = Host.Core.run core k ((s.withScript rest).withArg1 v) :=
  run_succ (step_store_register (r := .arg1) h) k

theorem run_storeTo_cmd {s t : State} {i : Instr} {rest : List HostAction}
    (h : s.script = storeTo s.params .cmd (encode i) :: rest)
    (hexec : exec i (s.withScript rest) = .next t) (k : Nat) :
    Host.Core.run core (k + 1) s = Host.Core.run core k t := by
  have hcmd : step s = performCommand (encode i) (s.withScript rest) :=
    step_store_register (r := .cmd) h
  rw [performCommand_of_decode_ok (decode_encode i), hexec] at hcmd
  exact run_succ hcmd k

/-- The three stores of a command statement set the operands and run the command. -/
theorem run_commandStores {s t : State} {a0 a1 : Word} {i : Instr} {rest : List HostAction}
    (hscript : s.script = commandStores s.params a0 a1 i ++ rest)
    (hexec : exec i { s with arg0 := a0, arg1 := a1, script := rest } = .next t) (k : Nat) :
    Host.Core.run core (k + 3) s = Host.Core.run core k t :=
  calc Host.Core.run core (k + 3) s
    _ = Host.Core.run core (k + 2) (State.withArg0 (s.withScript _) a0) :=
      run_storeTo_arg0 hscript (k + 2)
    _ = Host.Core.run core (k + 1) (State.withArg1 (State.withScript _ _) a1) :=
      run_storeTo_arg1 rfl (k + 1)
    _ = Host.Core.run core k t := run_storeTo_cmd rfl hexec k

/-- Settles O43: every command answers a next state, in which the three stores end. -/
theorem statementRunsItsCommand : Obligations.StatementRunsItsCommand := by
  intro s a0 a1 i rest hscript
  obtain ⟨t, hexec⟩ := exec_next i { s with arg0 := a0, arg1 := a1, script := rest }
  rw [hexec]
  exact run_commandStores hscript hexec 0

/-- Settles O44: the effect of CHECK, on the state from which the access has been taken. -/
theorem checkStopsOnError : Obligations.CheckStopsOnError := by
  intro s rest hscript
  exact step_of_exists hscript trivial (by simp)

theorem construct_eq_some {p : Config.Params} {s : State} (h : construct p = some s) :
    s = State.resetWith p := by
  rw [construct] at h
  exact (Option.some.inj (Option.ite_none_right_eq_some.mp h).2).symm

theorem setWidth_code_eq_statusWord (code : BitVec 8) :
    code.setWidth 32 = statusWord code false := by
  apply BitVec.eq_of_toNat_eq
  rw [toNat_statusWord, BitVec.toNat_setWidth]
  have := code.isLt
  simp only [Bool.toNat_false]
  omega

/-- Settles O51: the four accesses are a SET_RATES statement, which writes neither OFFSET nor FATAL,
and a CHECK, which reads the code it left. -/
theorem constructWithRatesKeepsResetOffset : Obligations.ConstructWithRatesKeepsResetOffset := by
  intro p cr sr s hs
  obtain ⟨u, hu, rfl⟩ := Option.map_eq_some_iff.mp hs
  obtain rfl := construct_eq_some hu
  have hrates := everyCommandEndsInItsCodes .setRates
    { State.resetWith p with arg0 := cr, arg1 := sr, script := [.check] } rfl
  obtain ⟨t, hexec, hcode⟩ := hrates
  obtain ⟨⟨-, -, -, hscript, hreads⟩, -, hoffset, hfatal, -⟩ :=
    onlyTheListedCommandsWrite .setRates _ t hexec
  have hoffset : t.offset = Config.offsetReset := by
    by_contra hne
    simpa using hoffset hne
  have hfatal : t.fatal = false := by
    by_contra hne
    simpa using hfatal hne
  have hcheck := checkStopsOnError t [] hscript
  have hrun := run_commandStores
    (s := (State.resetWith p).withScript (commandStores p cr sr .setRates ++ [HostAction.check]))
    rfl hexec 1
  refine ⟨_, hrun.trans (run_succ hcheck 0), ?_, hfatal, hcode, ?_⟩
  · exact (congrArg BitVec.toNat hoffset).trans (by decide)
  · simp only [hreads, readReg, hfatal, setWidth_code_eq_statusWord]
    rfl

end Sys2Proof.Machine
end

section
/-! PROOFS. The step-sum law of the injections (spec/41_impulse_injector.md R110, R111): the taps
of a kernel with the unit-step law of spec/20_memory.md R61 sum to the delta, exactly while
nothing wraps and modulo 2^32 always. -/

namespace Sys2Proof.Machine

/-! ### Rows of the kernel (R59, R61) -/

theorem sum_map_range {M : Type} [AddCommMonoid M] (f : Nat → M) (n : Nat) :
    ((List.range n).map f).sum = ∑ k ∈ Finset.range n, f k := rfl

theorem sum_kernelCoeff (K : Config.Kernel) (row : Nat) :
    ∑ tap ∈ Finset.range 8, kernelCoeff K row tap = Config.rowSum (K.get (Fin.ofNat 33 row)) := by
  have htaps (r : Config.KernelRow) : r.toList = List.ofFn r.get :=
    List.ext_getElem (by simp) fun i _ _ => by
      simp only [List.getElem_ofFn, Vector.getElem_toList]
      rfl
  rw [Config.rowSum, htaps, List.map_ofFn, List.sum_ofFn, ← Fin.sum_univ_eq_sum_range]
  refine Finset.sum_congr rfl fun tap _ => ?_
  rw [kernelCoeff, Fin.ofNat_val_eq_self]
  rfl

/-- The unit-step law for the rows of a phase, by their numbers. -/
theorem rowSum_add_rowSum_mirrored {p : Config.Params} (h : p.KernelLegal) {row : Nat}
    (hrow : row ≤ 32) :
    Config.rowSum (p.kernel.get (Fin.ofNat 33 row))
      + Config.rowSum (p.kernel.get (Fin.ofNat 33 (32 - row))) = 32768 := by
  have hrev : Fin.ofNat 33 (32 - row) = (Fin.ofNat 33 row).rev := by
    apply Fin.ext
    simp only [Fin.rev, Fin.ofNat]
    omega
  rw [hrev]
  exact h _

/-! ### The sum of the taps (R103, R105) -/

theorem sum_firstHalfTap (K : Config.Kernel) (phase : Nat) (d1 d2 : Int) :
    ((List.range 8).map (firstHalfTap K phase d1 d2)).sum
      = Config.rowSum (K.get (Fin.ofNat 33 phase)) * d1
        + Config.rowSum (K.get (Fin.ofNat 33 (phase + 1))) * d2 := by
  rw [sum_map_range, ← sum_kernelCoeff, ← sum_kernelCoeff, Finset.sum_mul, Finset.sum_mul,
    ← Finset.sum_add_distrib]
  rfl

theorem sum_secondHalfTap (K : Config.Kernel) (phase : Nat) (d1 d2 : Int) :
    ((List.range 8).map (secondHalfTap K phase d1 d2)).sum
      = Config.rowSum (K.get (Fin.ofNat 33 (32 - phase))) * d1
        + Config.rowSum (K.get (Fin.ofNat 33 (31 - phase))) * d2 := by
  rw [sum_map_range, ← sum_kernelCoeff, ← sum_kernelCoeff, Finset.sum_mul, Finset.sum_mul,
    ← Finset.sum_add_distrib, ← Finset.sum_range_reflect]
  refine Finset.sum_congr rfl fun k hk => ?_
  have hk : 7 - (8 - 1 - k) = k := by
    have := Finset.mem_range.mp hk
    omega
  rw [secondHalfTap, hk]

/-- Each share of the delta meets a row and its mirrored row, which together sum to 32768. -/
theorem sum_preciseTaps {p : Config.Params} (h : p.KernelLegal) (fixed : Nat) (d : Int) :
    (preciseTaps p.kernel fixed d).sum
      = (deltaShare1 d (interpOf fixed) + deltaShare2 d (interpOf fixed)) * 32768 := by
  have hphase := phaseOf_lt fixed
  have hrow := rowSum_add_rowSum_mirrored h (row := phaseOf fixed) (by omega)
  have hnext := rowSum_add_rowSum_mirrored h (row := phaseOf fixed + 1) (by omega)
  rw [Nat.sub_add_eq, Nat.sub_right_comm] at hnext
  simp only [preciseTaps, Config.halfWidth, List.sum_append, sum_firstHalfTap, sum_secondHalfTap]
  linear_combination deltaShare1 d (interpOf fixed) * hrow + deltaShare2 d (interpOf fixed) * hnext

theorem sum_fastTaps (fixed : Nat) (d : Int) : (fastTaps fixed d).sum = wrap32 (d * 32768) := by
  simp [fastTaps, Config.deltaUnit]

/-! ### Without a wrap -/

theorem wrap32_of_bounds {v : Int} (hlo : -2 ^ 31 ≤ v) (hhi : v < 2 ^ 31) : wrap32 v = v := by
  rw [wrap32, Int.bmod_eq_of_le] <;> omega

section
variable {d : Int} (hlo : -32768 ≤ d) (hhi : d ≤ 32768)
include hlo hhi

/-- A 15-bit weight of a small delta does not wrap. -/
theorem wrap32_mul_weight {w : Nat} (hw : w < 32768) : wrap32 (d * w) = d * w := by
  apply wrap32_of_bounds <;> nlinarith

/-- d2 lies between 0 and d. -/
theorem deltaShare2_between {interp : Nat} (h : interp < 32768) :
    min 0 d ≤ deltaShare2 d interp ∧ deltaShare2 d interp ≤ max 0 d := by
  rw [deltaShare2, wrap32_mul_weight hlo hhi h, asr, Config.deltaBits]
  rcases le_total 0 d with hd | hd
  · have hnonneg : 0 ≤ d * interp := by positivity
    have hle : d * interp ≤ d * 32768 := by gcongr; omega
    omega
  · have hnonpos : d * interp ≤ 0 := mul_nonpos_of_nonpos_of_nonneg hd (by positivity)
    have hle : d * 32768 ≤ d * interp := mul_le_mul_of_nonpos_left (by omega) hd
    omega

theorem deltaShare1_eq_sub {interp : Nat} (h : interp < 32768) :
    deltaShare1 d interp = d - deltaShare2 d interp := by
  obtain ⟨hge, hle⟩ := deltaShare2_between hlo hhi h
  apply wrap32_of_bounds <;> omega

/-- The two shares have the sign of d. -/
theorem abs_deltaShares_le {interp : Nat} (h : interp < 32768) :
    |deltaShare1 d interp| + |deltaShare2 d interp| ≤ 32768 := by
  obtain ⟨hge, hle⟩ := deltaShare2_between hlo hhi h
  rw [deltaShare1_eq_sub hlo hhi h]
  rcases le_total 0 d with hd | hd
  · rw [abs_of_nonneg (by omega), abs_of_nonneg (by omega)]
    omega
  · rw [abs_of_nonpos (by omega), abs_of_nonpos (by omega)]
    omega

end

theorem abs_kernelCoeff_le (K : Config.Kernel) (row tap : Nat) :
    |kernelCoeff K row tap| ≤ 32768 := by
  rw [abs_le, kernelCoeff]
  have hge := BitVec.le_toInt ((K.get (Fin.ofNat 33 row)).get (Fin.ofNat 8 tap))
  have hlt := BitVec.toInt_lt (x := (K.get (Fin.ofNat 33 row)).get (Fin.ofNat 8 tap))
  omega

/-- Two coefficients weighted by shares that sum to a small magnitude stay far below the width of a
cell. -/
theorem abs_weighted_lt {a b x y : Int} (ha : |a| ≤ 32768) (hb : |b| ≤ 32768)
    (hxy : |x| + |y| ≤ 32768) : |a * x + b * y| < 2 ^ 31 :=
  calc |a * x + b * y|
    _ ≤ |a * x| + |b * y| := abs_add_le _ _
    _ = |a| * |x| + |b| * |y| := by rw [abs_mul, abs_mul]
    _ ≤ 32768 * |x| + 32768 * |y| := by gcongr
    _ < 2 ^ 31 := by omega

section
variable {d : Int} (hlo : -32768 ≤ d) (hhi : d ≤ 32768)
include hlo hhi

theorem abs_preciseTaps_lt (K : Config.Kernel) (fixed : Nat) {c : Int}
    (hc : c ∈ preciseTaps K fixed d) : |c| < 2 ^ 31 := by
  have hshares := abs_deltaShares_le hlo hhi (interpOf_lt fixed)
  obtain hfirst | hsecond := List.mem_append.mp hc
  · obtain ⟨k, -, rfl⟩ := List.mem_map.mp hfirst
    exact abs_weighted_lt (abs_kernelCoeff_le _ _ _) (abs_kernelCoeff_le _ _ _) hshares
  · obtain ⟨k, -, rfl⟩ := List.mem_map.mp hsecond
    exact abs_weighted_lt (abs_kernelCoeff_le _ _ _) (abs_kernelCoeff_le _ _ _) hshares

theorem fastTaps_eq (fixed : Nat) :
    fastTaps fixed d = [d * (32768 - fastWeight fixed), d * fastWeight fixed] := by
  have hunit : wrap32 (d * 32768) = d * 32768 := by apply wrap32_of_bounds <;> omega
  simp only [fastTaps, wrap32_mul_weight hlo hhi (fastWeight_lt fixed), Config.deltaUnit]
  rw [show ((2 ^ 15 : Nat) : Int) = 32768 from rfl, hunit, mul_sub]

theorem abs_fastTaps_lt (fixed : Nat) {c : Int} (hc : c ∈ fastTaps fixed d) : |c| < 2 ^ 31 := by
  have hweight := fastWeight_lt fixed
  have hsmall {w : Int} (hw : |w| ≤ 32768) : |d * w| < 2 ^ 31 := by
    simpa using abs_weighted_lt (b := 0) (y := 0) (abs_le.mpr ⟨hlo, hhi⟩) (by simp)
      (by simpa using hw)
  rw [fastTaps_eq hlo hhi, List.mem_pair] at hc
  obtain rfl | rfl := hc
  · exact hsmall (abs_le.mpr (by omega))
  · exact hsmall (abs_le.mpr (by omega))

end

/-- Settles O16: without a wrap the two shares sum to d, and no tap leaves the width of a cell. -/
theorem tapsSumExactlyWithoutWrap : Obligations.TapsSumExactlyWithoutWrap := by
  intro p fixed d hp hlo hhi
  refine ⟨?precise, ?fast, fun c hc => abs_lt.mp ?bound⟩
  case precise =>
    rw [sum_preciseTaps hp, deltaShare1_eq_sub hlo hhi (interpOf_lt fixed), sub_add_cancel]
  case fast => exact (sum_fastTaps fixed d).trans (wrap32_of_bounds (by omega) (by omega))
  case bound =>
    obtain hprecise | hfast := List.mem_append.mp hc
    · exact abs_preciseTaps_lt hlo hhi p.kernel fixed hprecise
    · exact abs_fastTaps_lt hlo hhi fixed hfast

/-! ### The sum of BUF (R110) -/

/-- The sum of the first n cells of BUF. -/
def bufTotal (m : Cells 32) (n : Nat) : Word := ∑ j ∈ Finset.range n, bufRead m j

theorem bufTotal_bufAdd (m : Cells 32) {i n : Nat} (hi : i < n) (c : Int) :
    bufTotal (bufAdd m i c) n = bufTotal m n + BitVec.ofInt 32 c := by
  have hcell (j : Nat) : bufRead (bufAdd m i c) j
      = bufRead m j + if j = i then BitVec.ofInt 32 c else 0 := by
    rw [bufRead_bufAdd]
    split <;> simp
  simp only [bufTotal, hcell, Finset.sum_add_distrib, Finset.sum_ite_eq', Finset.mem_range,
    if_pos hi]

/-- Values that all fall on the first n cells change the sum of these by their own sum. -/
theorem bufTotal_addCells (cs : List Int) (m : Cells 32) {base n : Nat}
    (h : base + cs.length ≤ n) :
    bufTotal (addCells m base cs) n = bufTotal m n + BitVec.ofInt 32 cs.sum := by
  induction cs generalizing m base with
  | nil => simp [addCells]
  | cons c cs ih =>
    rw [List.length_cons] at h
    rw [addCells, ih _ (by omega), bufTotal_bufAdd m (by omega), List.sum_cons, BitVec.ofInt_add,
      add_assoc]

theorem sum_bufRead_sub (m m' : Cells 32) (n : Nat) :
    ((List.range n).map fun j => bufRead m' j - bufRead m j).sum = bufTotal m' n - bufTotal m n :=
  (sum_map_range _ n).trans (Finset.sum_sub_distrib _ _)

/-- The shares wrap, but their sum is d modulo 2^32 (R111). -/
theorem ofInt_sum_preciseTaps {p : Config.Params} (h : p.KernelLegal) (fixed : Nat) (d : Word) :
    BitVec.ofInt 32 (preciseTaps p.kernel fixed d.toInt).sum = d * 32768#32 := by
  rw [sum_preciseTaps h, BitVec.ofInt_mul, BitVec.ofInt_add, deltaShare1, ofInt_wrap32, ofInt_sub,
    BitVec.ofInt_toInt, sub_add_cancel]
  rfl

theorem ofInt_sum_fastTaps (fixed : Nat) (d : Word) :
    BitVec.ofInt 32 (fastTaps fixed d.toInt).sum = d * 32768#32 := by
  rw [sum_fastTaps, ofInt_wrap32, BitVec.ofInt_mul, BitVec.ofInt_toInt]
  rfl

/-- Settles O15: a target that passes the range check keeps all cells of the injection in BUF, so
the sum of BUF changes by the sum of the taps. -/
theorem injectionTotalIsTheDelta : Obligations.InjectionTotalIsTheDelta := by
  intro i s t hi hs _ hexec hok
  obtain ⟨⟨-, -, -, hkernel⟩, -⟩ := hs
  rw [sum_bufRead_sub, sub_eq_iff_eq_add']
  obtain rfl | rfl := hi
  · obtain ⟨-, hrange, rfl⟩ := commandEffect_of_exec_ok hexec hok (by decide)
    have hfits : targetCell s (operand0 s) + 16 ≤ s.params.capacity + 18 := targetCell_le hrange
    simp only [commandEffect, State.withBuf_buf]
    rw [bufTotal_addCells _ _ (by rwa [length_preciseTaps]), deltaOperand,
      ofInt_sum_preciseTaps hkernel]
  · obtain ⟨-, hrange, rfl⟩ := commandEffect_of_exec_ok hexec hok (by decide)
    have hfits : targetCell s (operand0 s) + 16 ≤ s.params.capacity + 18 := targetCell_le hrange
    simp only [commandEffect, State.withBuf_buf]
    rw [bufTotal_addCells _ _ (by rw [length_fastTaps]; omega), deltaOperand,
      ofInt_sum_fastTaps]

end Sys2Proof.Machine
end

section
/-! PROOFS. Frames (spec/42_frame_advancer.md R126, R129, R130, R132, R133): what END_FRAME
commits where the position does or does not wrap, the frame that CLOCKS_NEEDED sizes, and the
carry from frame to frame. -/

namespace Sys2Proof.Machine

/-! ### The position without a wrap (R100, R125) -/

theorem clockPos_of_lt {s : State} {t : Nat}
    (h : t * s.factor.toNat + s.offset.toNat < 2 ^ 64) :
    clockPos s t = t * s.factor.toNat + s.offset.toNat :=
  Nat.mod_eq_of_lt h

theorem le_frameSamples_iff {s : State} {T N : Nat}
    (h : T * s.factor.toNat + s.offset.toNat < 2 ^ 64) :
    N ≤ frameSamples s T ↔ 2 ^ 52 * N ≤ T * s.factor.toNat + s.offset.toNat := by
  rw [frameSamples, clockPos_of_lt h, Config.timeUnit, Nat.le_div_iff_mul_le (by decide),
    Nat.mul_comm]

theorem clockPos_zero {s : State} (h : s.offset.toNat < Config.timeUnit) :
    clockPos s 0 = s.offset.toNat := by
  rw [Config.timeUnit] at h
  rw [clockPos_of_lt (by omega), Nat.zero_mul, Nat.zero_add]

/-! ### END_FRAME alone -/

theorem toNat_ofNat_frameRemainder (s : State) (T : Nat) :
    (BitVec.ofNat 64 (frameRemainder s T)).toNat = frameRemainder s T := by
  have hlt := frameRemainder_lt s T
  rw [Config.timeUnit] at hlt
  rw [BitVec.toNat_ofNat, Nat.mod_eq_of_lt (by omega)]

/-- Settles O20: with no clocks the position is OFFSET, which is below one sample. -/
theorem emptyFrameAddsNothing : Obligations.EmptyFrameAddsNothing := by
  intro s hlegal hs harg
  obtain ⟨-, ⟨havail, hoffset, -⟩, -⟩ := hlegal
  have hT : operand0 s = 0 := by rw [operand0, harg]; rfl
  have hsamples : frameSamples s 0 = 0 := by
    rw [frameSamples, clockPos_zero hoffset, Nat.div_eq_of_lt hoffset]
  have hremainder : frameRemainder s 0 = s.offset.toNat := by
    rw [frameRemainder, clockPos_zero hoffset, Nat.mod_eq_of_lt hoffset]
  have hfits : ¬ s.params.capacity < s.avail.toNat + frameSamples s (operand0 s) := by
    rw [hT, hsamples]
    omega
  rw [exec, execEndFrame_fits hs hfits, hT, hsamples, hremainder, Nat.add_zero, BitVec.ofNat_toNat,
    BitVec.ofNat_toNat, BitVec.setWidth_eq, BitVec.setWidth_eq]

/-- Settles O21: the count and the remainder are the high 12 and the low 52 bits of the position,
which is the exact sum modulo 2^64. -/
theorem frameCountWrapsAt4096 : Obligations.FrameCountWrapsAt4096 := by
  intro s t _ hexec hok
  obtain ⟨-, -, rfl⟩ := commandEffect_of_exec_ok hexec hok (by decide)
  simp only [commandEffect, State.withOffset_avail, State.withAvail_avail, State.withOffset_offset]
  rw [toNat_ofNat_frameRemainder, BitVec.toNat_ofNat, frameSamples, frameRemainder, clockPos, u64,
    Config.timeUnit, operand0]
  omega

/-! ### CLOCKS_NEEDED and the frame it sizes (R131, R132) -/

/-- RESULT is the least count of clocks that reaches N samples, counted from OFFSET. -/
theorem toNat_clocksFor_le_iff {s : State} {N q : Nat} (hN : N < 2 ^ 32)
    (hfactor : 2 ^ 32 ≤ s.factor.toNat) :
    (clocksFor s N).toNat ≤ q ↔ 2 ^ 52 * N ≤ q * s.factor.toNat + s.offset.toNat := by
  by_cases hbelow : 2 ^ 52 * N < s.offset.toNat
  · rw [clocksFor_of_lt hbelow]
    exact iff_of_true (Nat.zero_le q) (by omega)
  · rw [toNat_clocksFor hN hfactor hbelow, ceilDiv_le_iff (by omega)]
    omega

/-- Up to RESULT clocks, where the position does not wrap, a frame has N samples exactly when it has
RESULT clocks. -/
theorem le_frameSamples_iff_clocksFor_le {s : State} {N q : Nat} (hN : N < 2 ^ 32)
    (hfactor : 2 ^ 32 ≤ s.factor.toNat) (hq : q ≤ (clocksFor s N).toNat)
    (hwrap : (clocksFor s N).toNat * s.factor.toNat + s.offset.toNat < 2 ^ 64) :
    N ≤ frameSamples s q ↔ (clocksFor s N).toNat ≤ q := by
  have hle : q * s.factor.toNat ≤ (clocksFor s N).toNat * s.factor.toNat :=
    Nat.mul_le_mul_right _ hq
  rw [le_frameSamples_iff (by omega), toNat_clocksFor_le_iff hN hfactor]

/-- Settles O23: RESULT is within its own bound, and RESULT - 1 is not. -/
theorem clocksNeededIsMinimal : Obligations.ClocksNeededIsMinimal := by
  intro s t hlegal _ hexec hok hwrap
  obtain ⟨-, ⟨-, -, hfactor⟩, -⟩ := hlegal
  obtain ⟨-, -, rfl⟩ := commandEffect_of_exec_ok hexec hok (by decide)
  simp only [commandEffect, State.withResult_result] at hwrap ⊢
  have hiff {q : Nat} (hq : q ≤ (clocksFor s (operand0 s)).toNat) :=
    le_frameSamples_iff_clocksFor_le s.arg0.isLt hfactor hq hwrap
  refine ⟨(hiff le_rfl).mpr le_rfl, fun hpos => Nat.not_le.mp fun hreach => ?_⟩
  have hle : (clocksFor s (operand0 s)).toNat ≤ (clocksFor s (operand0 s)).toNat - 1 :=
    (hiff (Nat.sub_le _ 1)).mp hreach
  omega

/-- Settles O24: no clocks reach no samples, and AVAIL alone passes the check. -/
theorem clocksNeededOfZeroIsZero : Obligations.ClocksNeededOfZeroIsZero := by
  intro s hlegal hs harg
  obtain ⟨-, ⟨havail, -, hfactor⟩, -⟩ := hlegal
  have hN : operand0 s = 0 := by rw [operand0, harg]; rfl
  have hzero : clocksFor s 0 = 0#64 := by
    apply BitVec.eq_of_toNat_eq
    exact Nat.le_zero.mp ((toNat_clocksFor_le_iff (by decide) hfactor).mpr (by omega))
  have hfits : ¬ s.params.capacity < s.avail.toNat + operand0 s := by
    rw [hN]
    omega
  rw [exec, execClocksNeeded_inRange hs hfits, hN, hzero]

/-! ### The state a frame leaves (R125, R127) -/

/-- The state a frame of T clocks leaves that fits; x stands in ARG1, which END_FRAME does not
read. -/
def afterFrame (s : State) (T x : Word) : State :=
  { withOperands s T x with
    code := 0#8
    avail := BitVec.ofNat 32 (s.avail.toNat + frameSamples s T.toNat)
    offset := BitVec.ofNat 64 (frameRemainder s T.toNat) }

theorem exec_endFrame_of_fits {s : State} {T : Word} (hs : s.fatal = false)
    (h : s.avail.toNat + frameSamples s T.toNat ≤ s.params.capacity) (x : Word) :
    exec .endFrame (withOperands s T x) = .next (afterFrame s T x) :=
  execEndFrame_fits (s := withOperands s T x) hs (Nat.not_lt.mpr h)

theorem afterFrame_of_exec_ok {s b : State} {T x : Word}
    (h : exec .endFrame (withOperands s T x) = .next b) (hok : b.code = 0#8) :
    s.avail.toNat + frameSamples s T.toNat ≤ s.params.capacity ∧ b = afterFrame s T x := by
  obtain ⟨-, hfits, rfl⟩ := commandEffect_of_exec_ok h hok (by decide)
  exact ⟨Nat.not_lt.mp hfits, rfl⟩

/-- CAPACITY is below 2^31, so AVAIL holds every count within it. -/
theorem toNat_ofNat_of_le_capacity {p : Config.Params} (hp : p.Legal) {n : Nat}
    (hn : n ≤ p.capacity) : (BitVec.ofNat 32 n).toNat = n := by
  obtain ⟨⟨-, hcapacity⟩, -⟩ := hp
  rw [Config.bufExtra] at hcapacity
  rw [BitVec.toNat_ofNat, Nat.mod_eq_of_lt (by omega)]

theorem toNat_avail_afterFrame {s : State} {T : Word} (hp : s.params.Legal)
    (h : s.avail.toNat + frameSamples s T.toNat ≤ s.params.capacity) (x : Word) :
    (afterFrame s T x).avail.toNat = s.avail.toNat + frameSamples s T.toNat :=
  toNat_ofNat_of_le_capacity hp h

/-- CLOCKS_NEEDED changes nothing that a frame depends on. -/
theorem frame_after_clocksNeeded {s t : State} (h : exec .clocksNeeded s = .next t) :
    t.params = s.params ∧ t.fatal = s.fatal ∧ t.avail = s.avail ∧
      ∀ q, frameSamples t q = frameSamples s q := by
  obtain ⟨⟨hparams, -⟩, hfactor, hoffset, hfatal, -, havail, -⟩ :=
    onlyTheListedCommandsWrite .clocksNeeded s t h
  have hfactor : t.factor = s.factor := by simpa using hfactor
  have hoffset : t.offset = s.offset := by simpa using hoffset
  exact ⟨hparams, by simpa using hfatal, by simpa using havail, fun q => by
    rw [frameSamples, clockPos, hfactor, hoffset, ← clockPos, ← frameSamples]⟩

/-- Settles O52: a frame after CLOCKS_NEEDED commits the n that `clocksNeededIsMinimal` bounds,
unless it does not fit; below N it fits because AVAIL + N does. -/
theorem clocksNeededSizesTheFrame : Obligations.ClocksNeededSizesTheFrame := by
  intro s t T x hlegal hs hexec hok hwrap
  obtain ⟨hreach, hbelow⟩ := clocksNeededIsMinimal s t hlegal hs hexec hok hwrap
  obtain ⟨-, hN, -⟩ := commandEffect_of_exec_ok hexec hok (by decide)
  have hN : s.avail.toNat + s.arg0.toNat ≤ s.params.capacity := Nat.not_lt.mp hN
  obtain ⟨hparams, hfatal, havail, hsamples⟩ := frame_after_clocksNeeded hexec
  have hlegalParams : t.params.Legal := hparams ▸ hlegal.1
  have hrunning : t.fatal = false := hfatal.trans hs
  rw [← hparams] at hN
  simp only [← hparams, ← havail, ← hsamples] at hN hreach hbelow ⊢
  refine ⟨fun hT => ?sized, fun hT => ?shorter⟩
  case sized =>
    split
    case isTrue hover =>
      exact ⟨_, execEndFrame_overflow (s := withOperands t T x) hrunning hover, rfl, rfl, rfl⟩
    case isFalse hfits =>
      have hfits := Nat.not_lt.mp hfits
      refine ⟨_, exec_endFrame_of_fits hrunning hfits x, rfl, ?_⟩
      rw [toNat_avail_afterFrame hlegalParams hfits, hT]
      omega
  case shorter =>
    have hfewer : frameSamples t T.toNat < s.arg0.toNat := by
      have hlast := hbelow (by omega)
      rwa [← hT, Nat.add_sub_cancel] at hlast
    have hfits : t.avail.toNat + frameSamples t T.toNat ≤ t.params.capacity := by omega
    refine ⟨_, exec_endFrame_of_fits hrunning hfits x, rfl, ?_⟩
    rw [toNat_avail_afterFrame hlegalParams hfits]
    omega

/-! ### The carry across frames (R126) -/

/-- Whole samples move the target alone: the other fields of a position are those of its low 20
bits. -/
theorem preciseTaps_add_samples (K : Config.Kernel) (fixed n : Nat) (d : Int) :
    preciseTaps K (fixed + 2 ^ 20 * n) d = preciseTaps K fixed d := by
  have hphase : phaseOf (fixed + 2 ^ 20 * n) = phaseOf fixed := by
    simp only [phaseOf, Config.deltaBits, Config.phaseCount]
    omega
  have hinterp : interpOf (fixed + 2 ^ 20 * n) = interpOf fixed := by
    simp only [interpOf, Config.deltaBits]
    omega
  simp only [preciseTaps, hphase, hinterp]

theorem fastTaps_add_samples (fixed n : Nat) (d : Int) :
    fastTaps (fixed + 2 ^ 20 * n) d = fastTaps fixed d := by
  have hweight : fastWeight (fixed + 2 ^ 20 * n) = fastWeight fixed := by
    simp only [fastWeight]
    omega
  simp only [fastTaps, hweight]

section
variable {s : State} {T t : Word} (x : Word)
  (hwrap : (T.toNat + t.toNat) * s.factor.toNat + s.offset.toNat < 2 ^ 64)
include hwrap

/-- The position of a clock after the frame is its position before, without the samples of the
frame. -/
theorem fixedPos_afterFrame :
    fixedPos s (T.toNat + t.toNat)
      = fixedPos (afterFrame s T x) t.toNat + 2 ^ 20 * frameSamples s T.toNat := by
  have hfactor : (afterFrame s T x).factor = s.factor := rfl
  have hoffset : (afterFrame s T x).offset.toNat = frameRemainder s T.toNat :=
    toNat_ofNat_frameRemainder s T.toNat
  rw [Nat.add_mul] at hwrap
  have hframe : clockPos s T.toNat = T.toNat * s.factor.toNat + s.offset.toNat :=
    clockPos_of_lt (by omega)
  have hle : frameRemainder s T.toNat ≤ clockPos s T.toNat := Nat.mod_le _ _
  have hafter : clockPos (afterFrame s T x) t.toNat
      = t.toNat * s.factor.toNat + frameRemainder s T.toNat := by
    rw [clockPos_of_lt (by rw [hfactor, hoffset]; omega), hfactor, hoffset]
  have hbefore : clockPos s (T.toNat + t.toNat)
      = T.toNat * s.factor.toNat + t.toNat * s.factor.toNat + s.offset.toNat := by
    rw [clockPos_of_lt (by rw [Nat.add_mul]; omega), Nat.add_mul]
  rw [fixedPos, fixedPos, hafter, hbefore]
  simp only [frameSamples, frameRemainder, hframe, Config.timeUnit, Config.preShift]
  omega

theorem targetCell_afterFrame (hp : s.params.Legal)
    (hfits : s.avail.toNat + frameSamples s T.toNat ≤ s.params.capacity) :
    targetCell (afterFrame s T x) t.toNat = targetCell s (T.toNat + t.toNat) := by
  rw [targetCell, targetCell, toNat_avail_afterFrame hp hfits, fixedPos_afterFrame x hwrap,
    Config.fracBits]
  omega

/-- What an injection adds does not depend on the frames in between. -/
theorem Injection.taps_afterFrame {T' : Word} (hT' : T'.toNat = T.toNat + t.toNat) (fast : Bool)
    (d : Word) :
    Injection.taps (afterFrame s T x) ⟨fast, t, d⟩ = Injection.taps s ⟨fast, T', d⟩ := by
  have hkernel : (afterFrame s T x).params.kernel = s.params.kernel := rfl
  simp only [Injection.taps, hkernel, hT', fixedPos_afterFrame x hwrap, preciseTaps_add_samples,
    fastTaps_add_samples]

end

theorem Injection.apply_of_exec_ok {s a : State} {j : Injection}
    (h : exec j.instr (withOperands s j.clockTime j.delta) = .next a) (hok : a.code = 0#8) :
    j.Accepted s ∧ a = j.apply s := by
  by_cases haccepted : j.Accepted s
  · exact ⟨haccepted, Host.Outcome.next.inj (h.symm.trans (Injection.exec_of_accepted haccepted))⟩
  · obtain ⟨t, hexec, hcode⟩ := Injection.exec_of_not_accepted haccepted
    obtain rfl : t = a := Host.Outcome.next.inj (hexec.symm.trans h)
    exact absurd hok hcode

/-- R126 for an injection as data: the two orders add the same taps from the same cell up. -/
theorem injection_commutes_with_frame {s a b : State} {fast : Bool} {T t T' d x : Word}
    (hp : s.params.Legal) (hT' : T'.toNat = T.toNat + t.toNat)
    (hwrap : (T.toNat + t.toNat) * s.factor.toNat + s.offset.toNat < 2 ^ 64)
    (hinject : exec (Injection.instr ⟨fast, T', d⟩) (withOperands s T' d) = .next a)
    (ha : a.code = 0#8) (hframe : exec .endFrame (withOperands a T x) = .next b)
    (hb : b.code = 0#8) :
    ∃ u v : State, exec .endFrame (withOperands s T x) = .next u ∧ u.code = 0#8 ∧
      exec (Injection.instr ⟨fast, t, d⟩) (withOperands u t d) = .next v ∧ v.code = 0#8 ∧
      v.buf = b.buf ∧ v.avail = b.avail ∧ v.offset = b.offset := by
  obtain ⟨⟨hs, hrange⟩, rfl⟩ := Injection.apply_of_exec_ok (j := ⟨fast, T', d⟩) hinject ha
  obtain ⟨hfits, rfl⟩ := afterFrame_of_exec_ok hframe hb
  have hfits : s.avail.toNat + frameSamples s T.toNat ≤ s.params.capacity := hfits
  have htarget := targetCell_afterFrame x hwrap hp hfits
  have haccepted : Injection.Accepted (afterFrame s T x) ⟨fast, t, d⟩ := by
    refine ⟨hs, ?_⟩
    rw [hT'] at hrange
    rwa [TargetOutOfRange, htarget]
  refine ⟨_, _, exec_endFrame_of_fits hs hfits x, rfl, Injection.exec_of_accepted haccepted, rfl,
    ?_, rfl, rfl⟩
  change addCells s.buf (Injection.base _ _) (Injection.taps _ _)
    = addCells s.buf (Injection.base s _) (Injection.taps s _)
  rw [Injection.taps_afterFrame x hwrap hT', Injection.base, Injection.base, htarget, hT']

/-- Settles O19: both commands of R126 are injections, and T + t does not wrap. -/
theorem frameCarryIsExact : Obligations.FrameCarryIsExact := by
  intro j s a b T t d x hj hlegal hclocks hwrap hinject ha hframe hb
  have hT' : (T + t).toNat = T.toNat + t.toNat := by
    rw [BitVec.toNat_add, Nat.mod_eq_of_lt hclocks]
  obtain rfl | rfl := hj
  · exact injection_commutes_with_frame (fast := false) hlegal.1 hT' hwrap hinject ha hframe hb
  · exact injection_commutes_with_frame (fast := true) hlegal.1 hT' hwrap hinject ha hframe hb

end Sys2Proof.Machine
end

section
/-! PROOFS. Reads (spec/43_sample_extractor.md R142, R145, R147, R150, R155-R157): what the two
reads share, where the window of the move does not matter, and how the running sum falls. -/

namespace Sys2Proof.Machine

/-! ### The two reads (R155, R156) -/

/-- Settles O27: both reads drain the same cells, and each writes its own output memory beside. -/
theorem bothReadsEvolveAlike : Obligations.BothReadsEvolveAlike := by
  intro s t u stereo stereo' ht hu htok huok
  obtain ⟨-, -, rfl⟩ := commandEffect_of_exec_ok ht htok (by simp [commandError])
  obtain ⟨-, -, rfl⟩ := commandEffect_of_exec_ok hu huok (by simp [commandError])
  simp only [commandEffect, writeSamples16, writeSamplesF, State.withOut16, State.withOutF]

/-- Settles O28: 15 bits are fewer than the 24 that a pattern holds. -/
theorem floatScalingIsExact : Obligations.FloatScalingIsExact := by
  intro sample hlo hhi
  exact binary32Value_float32 (by omega)

/-! ### The window of the move (R147, D24) -/

/-- Where the cells from `span` on are empty, a larger window moves nothing more. -/
theorem bufRead_shiftCells_of_empty_from {m : Cells 32} {n span window : Nat} (hn : n ≤ span)
    (hwindow : span ≤ window) (hempty : ∀ j, span ≤ j → bufRead m j = 0#32) (j : Nat) :
    bufRead (shiftCells m n window) j = bufRead m (j + n) := by
  rw [bufRead_shiftCells _ _ _ _ (hn.trans hwindow)]
  split_ifs with hmoved hvacated
  · rfl
  · exact (hempty (j + n) (by omega)).symm
  · rw [hempty j (by omega), hempty (j + n) (by omega)]

/-- s with another SHIFT_WINDOW. -/
def withWindow (s : State) (window : Config.ShiftWindow) : State :=
  { s with params := { s.params with shiftWindow := window } }

/-- Where the cells from AVAIL + 18 on are empty, READ_SAMPLES moves BUF by one distance under
either window: by the samples it drains if it succeeds, and else not at all. -/
theorem bufRead_readSamples_withWindow {s : State} (havail : s.avail.toNat ≤ s.params.capacity)
    (hempty : ∀ j, s.avail.toNat + 18 ≤ j → bufRead s.buf j = 0#32) (stereo : Bool) :
    ∃ k, ∀ window t, exec (.readSamples stereo) (withWindow s window) = .next t →
      ∀ j, bufRead t.buf j = bufRead s.buf (j + k) := by
  by_cases hok : s.fatal = false ∧ ¬ CommandFails s (.readSamples stereo)
  · obtain ⟨hs, hgood⟩ := hok
    refine ⟨readCount s, fun window t h j => ?_⟩
    have hexec := exec_of_not_fails (s := withWindow s window) (i := .readSamples stereo) hs hgood
    obtain rfl := finish_next (hexec.symm.trans h)
    have hcount := readCount_le_avail s
    simp only [commandEffect, writeSamples16, drainState, State.withOut16_buf, State.withResult_buf,
      State.withAvail_buf, State.withBuf_buf]
    refine bufRead_shiftCells_of_empty_from (m := s.buf) (n := readCount s)
      (span := s.avail.toNat + 18) (by omega) ?_ hempty j
    cases window with
    | availPlusExtra => exact le_rfl
    | wholeBuffer => exact Nat.add_le_add_right havail 18
  · refine ⟨0, fun window t h j => ?_⟩
    obtain ⟨-, rfl⟩ | ⟨-, -, rfl⟩ | ⟨hs, hgood, -⟩ := exec_cases h
    · rfl
    · rfl
    · exact absurd ⟨hs, hgood⟩ hok

/-- Settles O29: under either window BUF moves by the same distance. -/
theorem shiftWindowsAgreeOnClosedFrames : Obligations.ShiftWindowsAgreeOnClosedFrames := by
  intro s t u stereo havail hempty ht hu j
  obtain ⟨k, hmove⟩ := bufRead_readSamples_withWindow havail hempty stereo
  exact (hmove .availPlusExtra t ht j).trans (hmove .wholeBuffer u hu j).symm

/-! ### The running sum over an empty cell (R145, R150) -/

theorem integrate_zero (acc : Word) : integrate acc 0#32 = acc := by
  rw [integrate, BitVec.toInt_zero, Int.add_zero, BitVec.ofInt_toInt]

/-- Over an empty cell the two orders do the same. -/
theorem extractCell_zero (order : Config.SampleOrder) (acc : Word) :
    extractCell order acc 0#32 = (sampleOf acc, highPass acc (sampleOf acc)) := by
  cases order with
  | integrateFirst => rw [extractCell, integrate_zero]
  | sampleFirst => rw [extractCell, integrate_zero]

/-- Settles O30: the sample is the integer part of the sum, cut at 32767, and 64 times it is at most
the sum. -/
theorem highPassSettlesTowardZero : Obligations.HighPassSettlesTowardZero := by
  intro order acc hacc
  have hlt := BitVec.toInt_lt (x := acc)
  have hsample : sampleOf acc = min (acc.toInt / 32768) 32767 := by
    rw [sampleOf, clamp16, asr, Config.deltaBits]
    omega
  have hsum : (highPass acc (sampleOf acc)).toInt = acc.toInt - sampleOf acc * 64 := by
    rw [toInt_highPass]
    apply wrap32_of_bounds <;> omega
  rw [extractCell_zero, hsum]
  omega

/-! ### After CLEAR (R157) -/

theorem readCount_of_avail_zero {s : State} (h : s.avail = 0#32) : readCount s = 0 := by
  rw [readCount, h]
  exact Nat.min_zero _

/-- A read of a CORE without samples succeeds and writes RESULT = 0 alone. -/
theorem exec_read_of_avail_zero {s : State} (hs : s.fatal = false) (h : s.avail = 0#32) {i : Instr}
    {stereo : Bool} (hi : i = .readSamples stereo ∨ i = .readFloatSamples stereo) :
    exec i s = .next { s with code := 0#8, result := 0#64 } := by
  have hcount := readCount_of_avail_zero h
  obtain rfl | rfl := hi
  · obtain ⟨-, hexec⟩ | ⟨hsome, -⟩ | ⟨hsome, -⟩ := execReadSamples_cases stereo hs
    · exact hexec
    · exact absurd hcount hsome
    · exact absurd hcount hsome
  · obtain ⟨-, hexec⟩ | ⟨hsome, -⟩ | ⟨hsome, -⟩ := execReadFloatSamples_cases stereo hs
    · exact hexec
    · exact absurd hcount hsome
    · exact absurd hcount hsome

/-- Settles O31: CLEAR leaves AVAIL = 0 and INTEGRATOR = 0. -/
theorem clearThenReadReturnsNothing : Obligations.ClearThenReadReturnsNothing := by
  intro s t a0 a1 stereo i hi hs hclear
  have ht := Host.Outcome.next.inj ((execClear_running hs).symm.trans hclear)
  have hrunning : t.fatal = false := ht ▸ hs
  have havail : t.avail = 0#32 := ht ▸ rfl
  have hintegrator : t.integrator = 0#32 := ht ▸ rfl
  exact ⟨_, exec_read_of_avail_zero (s := withOperands t a0 a1) hrunning havail hi, rfl, rfl,
    hintegrator⟩

end Sys2Proof.Machine
end
